-- ==== Sys2Proof/Word.lean ====
section
/-! DEFINITION. The word types of the part and the numbers by which it names its slots, legs,
carrier groups and the phases of a motor (00_scope.md, Conventions of Text). -/

namespace Sys2Proof

/-- A byte of a telegram. -/
abbrev Byte := BitVec 8

/-- A 16-bit parameter, value or set as the links carry it. -/
abbrev Word := BitVec 16

/-- Slots are numbered 0 to 7. -/
abbrev SlotId := Fin 8

/-- Legs are numbered 0 to 23. -/
abbrev LegId := Fin 24

/-- Carrier groups G0 to G3. -/
abbrev GroupId := Fin 4

/-- The phases of a motor. -/
inductive Phase where
  | u | v | w
  deriving DecidableEq, Repr

/-- The two drive links. -/
inductive DriveLink where
  | a | b
  deriving DecidableEq, Repr

/-- The three links. -/
inductive Link where
  | a | b | s
  deriving DecidableEq, Repr

/-- Drive Link A or B among the three links. -/
def DriveLink.toLink : DriveLink → Link
  | .a => .a
  | .b => .b

/-- The slope of a carrier counter (R57). -/
inductive Slope where
  | rise | fall
  deriving DecidableEq, Repr

/-- The edge of a link clock (R163). -/
inductive Edge where
  | rising | falling
  deriving DecidableEq, Repr

/-- One page of the nonvolatile store: 64 bytes, held as 32 words of two bytes, high byte first
(R178, R179). -/
abbrev Page := Vector Word 32

end Sys2Proof
end

