-- ==== Sys2Proof/Syntax.lean ====
section
/-! DEFINITION. The commands of the block: one constructor of `Instr` for each row of
spec/opcode_table.json, and the works that an event leaves to be done at its instant. -/

namespace Sys2Proof

/-- A piece of work that falls due inside an event (95_what_each_step_holds.md). Where the spec says
of two of them that either may be taken first, the order in which the list of works names them
decides. Works marked ROW have a command of their own. -/
inductive Work where
  /-- Torque-Off Control accepts the level on the TOFF line (R144 to R146). -/
  | toffAccept (high : Bool)
  /-- The Measurement Unit samples every leg: fast values and overcurrent counts, and the driver-ready
  levels, bit n of `drdy` for leg n (R76, R77, R79). -/
  | legSamples (drdy : BitVec 24)
  /-- A STREAM notice for a leg (R78). -/
  | streamNotice (leg : LegId)
  /-- A DRIVER notice for a leg (R80). -/
  | driverNotice (leg : LegId)
  /-- ROW: an OVERCURRENT notice for a leg (R77). -/
  | overcurrent (leg : LegId)
  /-- ROW: a link's reset count stands at 200 (R173). -/
  | linkReset (link : Link)
  /-- An accepted CYC edge is a cycle event: number and reference instant (R118). -/
  | cycleEdge
  /-- Internal generation becomes ACTIVE, with CYC_LOST set (R119), or INACTIVE (R120). -/
  | generation (active : Bool)
  /-- ROW (one for each request kind): the link serves the request at the head of its queue (R169). -/
  | serve (link : DriveLink)
  /-- The waiting staged tuning values of a slot go into the working image (R22). -/
  | applyStaged (slot : SlotId)
  /-- Setpoint Intake looks at a link's latest-command store (R123 to R128). -/
  | intake (link : DriveLink)
  /-- ROW: the link's miss counter stands at HOLD_MAX (R129). -/
  | stale (link : DriveLink)
  /-- The Loop Engine closes the cycle of every slot (R52). -/
  | closeCycle
  /-- The Budget Allocator allocates (R104 to R111). -/
  | allocate
  /-- The freshness counter steps, and at SAFE_TMO its consequences are drawn (R137, R140). A ROW, that of
  SAFETY_TIMEOUT, at a cycle event at which they are still to be drawn. -/
  | freshness
  /-- The stop counters step (R142). -/
  | countdown
  /-- ROW: a stop counter has reached 0 (R14). -/
  | stopExpiry (slot : SlotId)
  /-- A slot's cause set is copied into its snapshot set (R156). -/
  | faultCopy (slot : SlotId)
  /-- A drive link builds its response snapshot (R171). -/
  | snapshot (link : DriveLink)
  /-- The Safety Link builds its response snapshot (R172). -/
  | safetySnapshot
  /-- The Loop Engine computes the group's slots and the angles advance (R26, R130). -/
  | compute (group : GroupId)
  /-- ROW: a CURRENT_SUM notice (R85). -/
  | currentSum (slot : SlotId)
  /-- ROW: a LEG_IMBALANCE notice (R86). -/
  | legImbalance (slot : SlotId) (phase : Phase)
  /-- ROW: the 256th calibration sample has been taken (R82, R11). -/
  | calibrationComplete (slot : SlotId)
  /-- A pending turn-on has fallen due: the switch comes on as the clock leaves the instant, unless the leg's
  target has changed by then (R56). -/
  | turnOn (leg : LegId)
  deriving DecidableEq, Repr

/-- The levels at the pins that a fast sample event samples (R76, R117, R144, R173). -/
structure FastPins where
  /-- The CYC line. -/
  cyc : Bool
  /-- The TOFF line. -/
  toff : Bool
  /-- DRDY0 to DRDY23, bit n for leg n. -/
  drdy : BitVec 24
  /-- The masters' data lines ASDI, BSDI and SSDI. -/
  asdi : Bool
  bsdi : Bool
  ssdi : Bool
  deriving DecidableEq, Repr

/-- The commands: one constructor for each row of spec/opcode_table.json, in the table's order. -/
inductive Instr where
  | deviceReset
  | rstReleased
  | loadPageRead
  | loadComplete
  | fastSampleEvent (pins : FastPins) (order : List Work)
  | overcurrent (leg : LegId)
  | cycLossTimeout (order : List Work)
  | internalCycleEvent (order : List Work)
  | setpointStale (link : DriveLink) (order : List SlotId)
  | safetyTimeout
  | stopCounterExpiry (slot : SlotId)
  | claim (link : DriveLink)
  | release (link : DriveLink)
  | enable (link : DriveLink)
  | disable (link : DriveLink)
  | clear (link : DriveLink)
  | reserve (link : DriveLink)
  | readFaults (link : DriveLink)
  | readGlobal (link : DriveLink)
  | readParam (link : DriveLink)
  | writeParam (link : DriveLink)
  | enterSetup (link : DriveLink)
  | leaveSetup (link : DriveLink)
  | store (link : DriveLink)
  | storePageDone (readBack : Page)
  | forceLeg (link : DriveLink)
  | unknownKind (link : DriveLink)
  | transferStart (link : Link)
  | driveCommandTelegram (link : DriveLink)
  | safetyTelegram
  | linkReset (link : Link)
  | periodEvent (group : GroupId) (order : List Work)
  | calibrationComplete (slot : SlotId)
  | currentSum (slot : SlotId)
  | legImbalance (slot : SlotId) (phase : Phase)
  | carrierCompareMatch (leg : LegId) (slope : Slope)
  | deadTimeTurnOn (leg : LegId)
  | vDcSampleEvent (order : List SlotId)
  | tempSampleEvent (order : List SlotId)
  | modulatorClockEdge (group : GroupId) (ibs : BitVec 6) (tbs vbs : Bool)
  | linkClockEdge (link : Link) (edge : Edge) (sdi : Bool)
  deriving DecidableEq, Repr

end Sys2Proof
end

