-- ==== Sys2Proof/Decode.lean ====
section
/-! DEFINITION. The command a word spells. No row of spec/opcode_table.json gives bits: the part has
no instruction words, and its commands are events (log 14). -/

namespace Sys2Proof

/-- The command that the `nbits` bits `w` spell by the table's bits: none, for every word, since no
row of the table gives bits. -/
def decodeTableWord (_nbits _w : Nat) : Option Instr := none

end Sys2Proof
end

