-- ==== Sys2Proof/Config.lean ====
section
/-! DEFINITION. The constants of the part that the spec fixes: the periods of its clocks in counts of
the 100 MHz count clock, and the sizes of its windows. -/

namespace Sys2Proof.Config

/-- A fast sample event every 100 counts, 1 µs (R76). -/
def fastPeriod : Nat := 100

/-- A V_dc sample event every 2000 counts, 20 µs (R92). -/
def vdcPeriod : Nat := 2000

/-- A temperature sample event every 100,000 counts, 1 ms (R87). -/
def tempPeriod : Nat := 100000

/-- A rising edge of MCKg every 5 counts (R72). -/
def mckPeriod : Nat := 5

/-- LOADING lasts 2 ms from the release of RST (R177, R178). -/
def loadingCounts : Nat := 200000

/-- A page of the nonvolatile store is read every 250 µs of LOADING (R178). -/
def pagePeriod : Nat := 25000

/-- Bits of a period window and of the V_dc window (R73, R92). -/
def periodWindow : Nat := 1024

/-- Bits of a fast window (R73). -/
def fastWindow : Nat := 64

/-- Run length at which a stream is stuck (R78, R87). -/
def stuckRun : Nat := 128

/-- The run length caps here (R73). -/
def runCap : Nat := 65535

/-- Fast sample instants of a link reset: 200 µs (R173). -/
def linkResetCount : Nat := 200

/-- Calibration samples (R82). -/
def calSamples : Nat := 256

/-- Requests a queue holds (R168). -/
def queueDepth : Nat := 2

/-- Bytes of a transfer that are kept (R163). -/
def rxBytes : Nat := 255

/-- Counts of T_CYC/2 for one µs of T_CYC: the early window (R116). -/
def earlyFactor : Nat := 50

/-- Counts of T_CYC for one µs of T_CYC (R116). -/
def cycleFactor : Nat := 100

/-- Counts of 1.5·T_CYC for one µs of T_CYC: the loss timeout (R116). -/
def lossFactor : Nat := 150

end Sys2Proof.Config
end

