-- ==== Sys2Proof/Machine/Arith.lean ====
section
/-! DEFINITION. The arithmetic words of 00_scope.md (Arithmetic Conventions), the square root, the
reading of bytes and words as numbers, and the CRC of R165. Every divisor the part uses is positive,
where Lean's `/` on `Int` is the floor. -/

namespace Sys2Proof.Machine

/-- clamp(x, a, b). -/
def clampI (x a b : Int) : Int := if x < a then a else if x > b then b else x

/-- clamp(x, ±m). -/
def clampSym (x m : Int) : Int := clampI x (-m) m

/-- Sat16. -/
def sat16 (x : Int) : Int := clampI x (-32768) 32767

/-- trunc of a quotient: rounding toward zero. -/
def truncDiv (x d : Int) : Int := Int.tdiv x d

/-- round of a quotient by an even divisor: half the divisor is added before the floor. -/
def roundDiv (x d : Int) : Int := (x + d / 2) / d

/-- The bits of a square root, from the top down: a bit is kept when the square still fits. -/
def isqrtBits (n : Nat) : Nat → Nat → Nat
  | 0, r => r
  | b + 1, r => isqrtBits n b (if (r + 2 ^ b) * (r + 2 ^ b) ≤ n then r + 2 ^ b else r)

/-- isqrt: the floor of the square root. -/
def isqrt (n : Nat) : Nat := isqrtBits n (n.log2 / 2 + 1) 0

/-- isqrt of an integer that is not negative. -/
def isqrtI (x : Int) : Int := (isqrt x.toNat : Nat)

/-- The next instant of an event of period `p` after its last one, not before the present one: in an
unbroken run it is `last + p` (log 3). -/
def nextInstant (p last now : Nat) : Nat := max (last + p) ((now + p - 1) / p * p)

/-- The high byte of a 16-bit value. -/
def hiByte (w : Word) : Byte := (w >>> 8).setWidth 8

/-- The low byte of a 16-bit value. -/
def loByte (w : Word) : Byte := w.setWidth 8

/-- Two bytes, high byte first. -/
def wordOf (hi lo : Byte) : Word := hi ++ lo

/-- The two bytes of a value, high byte first. -/
def wordBytes (w : Word) : List Byte := [hiByte w, loByte w]

/-- A signed or unsigned number as a 16-bit field. -/
def toWord (x : Int) : Word := BitVec.ofInt 16 x

/-- One bit of the CRC of R165. -/
def crcBit (r : Word) (bit : Bool) : Word :=
  if bit = r.msb then r <<< 1 else (r <<< 1) ^^^ 0x1021#16

/-- One byte of the CRC, from its most significant bit down. -/
def crcByte (r : Word) (b : Byte) : Word :=
  [7, 6, 5, 4, 3, 2, 1, 0].foldl (fun r i => crcBit r (b.getLsbD i)) r

/-- The CRC of R165 over whole bytes from a seed. -/
def crc (seed : Word) (bytes : List Byte) : Word := bytes.foldl crcByte seed

/-- The seed of each link (R165). -/
def crcSeed : Link → Word
  | .a => 0x1F1F#16
  | .b => 0x2E2E#16
  | .s => 0x3D3D#16

/-- A telegram closed with its link's CRC, high byte first (R165). -/
def closeWithCrc (l : Link) (bytes : List Byte) : List Byte :=
  bytes ++ wordBytes (crc (crcSeed l) bytes)

end Sys2Proof.Machine
end

