-- ==== Sys2Proof/Machine/Image.lean ====
section
/-! DEFINITION. The parameter image (R179): where each parameter lies, its range, default and class,
the leg map (R53), the checks of validation (R182), the signature (R180) and the image CRC (R178). -/

namespace Sys2Proof.Machine

/-- The 512 bytes of an image, two bytes a word, high byte first (R178, R179). -/
abbrev Image := Vector Word 256

/-- The function of a leg (R53). -/
inductive LegFunc where
  | unused
  | phase (slot : SlotId) (phase : Phase) (index : Fin 2)
  | chopper
  | forced
  deriving DecidableEq, Repr

/-- A parameter of the image (R179). -/
inductive Item where
  /-- Global items 0 to 26. -/
  | global (i : Fin 27)
  /-- A leg-map entry. -/
  | leg (l : LegId)
  /-- Item j of a slot. -/
  | slot (s : SlotId) (j : Fin 16)
  deriving DecidableEq, Repr

/-- What an identifier names: SIGNATURE, which is not in the image, or a parameter (R179). -/
inductive ParamId where
  | signature
  | item (i : Item)
  deriving DecidableEq, Repr

/-- Reading an identifier: the high byte is the area, the low byte the item (R179). -/
def ParamId.ofWord (id : Word) : Option ParamId :=
  let area := (hiByte id).toNat
  let n := (loByte id).toNat
  if area = 0 then
    if h : n < 27 then some (.item (.global ⟨n, h⟩)) else if n = 31 then some .signature else none
  else if area = 1 then
    if h : n < 24 then some (.item (.leg ⟨n, h⟩)) else none
  else if ha : 2 ≤ area ∧ area ≤ 9 then
    if h : n < 16 then some (.item (.slot ⟨area - 2, by omega⟩ ⟨n, h⟩)) else none
  else none

/-- The word of the image that holds a parameter: byte 2i, 64 + 2l or 112 + 32s + 2j (R179). -/
def Item.index : Item → Fin 256
  | .global i => ⟨i.val, by omega⟩
  | .leg l => ⟨32 + l.val, by omega⟩
  | .slot s j => ⟨56 + 16 * s.val + j.val, by omega⟩

/-- A parameter's stored value. -/
def Image.item (img : Image) (i : Item) : Word := img[i.index]

/-- The image with one parameter replaced. -/
def Image.setItem (img : Image) (i : Item) (v : Word) : Image := img.set i.index v

/-- Whether a parameter is a tuning parameter: items 0 to 6 of a slot (R179). The others form the
protected area (R180). -/
def Item.tuning : Item → Bool
  | .slot _ j => j.val < 7
  | _ => false

/-- How a value is read and which values are allowed (R179). -/
inductive ValueKind where
  /-- An unsigned number and its range. -/
  | unsigned (lo hi : Nat)
  /-- A signed number and its range. -/
  | signed (lo hi : Int)
  /-- A set whose bits outside `used` are unused (R161). -/
  | bits (used : Word)
  /-- A slot number, or 255 for none. -/
  | partnerCode
  /-- A leg-map entry (R53). -/
  | legCode
  deriving DecidableEq, Repr

/-- The range or code set of each global item (R179). -/
def globalKind (i : Nat) : ValueKind :=
  if i = 0 then .unsigned 0 32767
  else if i = 1 then .unsigned 1 32768
  else if i ≤ 6 then .unsigned 0 32767
  else if i ≤ 8 then .signed (-400) 2400
  else if i ≤ 12 then .unsigned 1250 12500
  else if i ≤ 20 then .unsigned 0 255
  else if i = 21 then .unsigned 62 8000
  else if i = 22 then .unsigned 1 15
  else if i = 23 then .unsigned 2 255
  else if i = 24 then .unsigned 0 4095
  else if i = 25 then .bits 0x07FF#16
  else .bits 0x0FFF#16

/-- The range or code set of each slot item (R179). -/
def slotKind (j : Nat) : ValueKind :=
  if j ≤ 3 then .unsigned 0 32767
  else if j = 4 then .unsigned 0 32768
  else if j = 5 then .unsigned 0 255
  else if j ≤ 8 then .unsigned 0 32767
  else if j = 9 then .unsigned 1 8
  else if j = 10 then .unsigned 0 32767
  else if j = 11 then .unsigned 1 16
  else if j = 12 then .unsigned 0 32767
  else if j = 13 then .unsigned 0 3
  else if j = 14 then .unsigned 1 4095
  else .partnerCode

/-- The range or code set of a parameter (R179, R53, R161). -/
def Item.kind : Item → ValueKind
  | .global i => globalKind i.val
  | .leg _ => .legCode
  | .slot _ j => slotKind j.val

/-- The fields of a leg-map entry: function, slot, phase, index (R53). -/
def legField (v : Word) (shift : Nat) : Nat := (v.toNat / 2 ^ shift) % 16

/-- A phase code: 0 U, 1 V, 2 W (R53). -/
def Phase.ofCode (n : Nat) : Phase := if n = 0 then .u else if n = 1 then .v else .w

/-- Whether an entry's codes lie in their sets; the slot, phase and index fields matter for PHASE
alone (R53). -/
def legCodeOk (v : Word) : Bool :=
  let f := legField v 12
  decide (f ≤ 3) &&
    (decide (f ≠ 1) || (decide (legField v 8 ≤ 7) && decide (legField v 4 ≤ 2) && decide (legField v 0 ≤ 1)))

/-- The entry as it is stored and read: the fields a function does not use are 0 (R53, log 12). -/
def legNormal (v : Word) : Word := if legField v 12 = 1 then v else v &&& 0xF000#16

/-- The function an entry gives a leg (R53). -/
def legFuncOf (v : Word) : LegFunc :=
  match legField v 12 with
  | 1 => .phase ⟨legField v 8 % 8, by omega⟩ (Phase.ofCode (legField v 4)) ⟨legField v 0 % 2, by omega⟩
  | 2 => .chopper
  | 3 => .forced
  | _ => .unused

/-- What examining a value gives: refused BAD_VALUE (none), or the value stored and whether it was
clamped (R181, checks 3 and 4). -/
def Item.examine (i : Item) (v : Word) : Option (Word × Bool) :=
  match i.kind with
  | .unsigned lo hi =>
    if v.toNat < lo then some (BitVec.ofNat 16 lo, true)
    else if v.toNat > hi then some (BitVec.ofNat 16 hi, true)
    else some (v, false)
  | .signed lo hi =>
    if v.toInt < lo then some (toWord lo, true)
    else if v.toInt > hi then some (toWord hi, true)
    else some (v, false)
  | .bits used => if v &&& ~~~used = 0#16 then some (v, false) else none
  | .partnerCode => if v.toNat ≤ 7 ∨ v.toNat = 255 then some (v, false) else none
  | .legCode => if legCodeOk v then some (legNormal v, false) else none

/-- A value inside its range or code set (R178, condition 3). -/
def Item.valueOk (i : Item) (v : Word) : Bool :=
  match i.examine v with
  | some (_, clamped) => !clamped
  | none => false

/-- Every parameter of the image, in ascending identifier order. -/
def allItems : List Item :=
  (List.finRange 27).map .global ++ (List.finRange 24).map .leg ++
    (List.finRange 8).flatMap fun s => (List.finRange 16).map (.slot s)

/-- The protected items in ascending identifier order (R180). -/
def protectedItems : List Item := allItems.filter fun i => !i.tuning

/-! ### Named parameters (R179) -/

/-- An unsigned global item. -/
def Image.globalNat (img : Image) (i : Fin 27) : Nat := (img.item (.global i)).toNat

/-- An unsigned slot item. -/
def Image.slotNat (img : Image) (s : SlotId) (j : Fin 16) : Nat := (img.item (.slot s j)).toNat

def Image.iIn (img : Image) : Nat := img.globalNat 0
def Image.kRise (img : Image) : Nat := img.globalNat 1
def Image.vUv (img : Image) : Nat := img.globalNat 2
def Image.vChOff (img : Image) : Nat := img.globalNat 3
def Image.vChOn (img : Image) : Nat := img.globalNat 4
def Image.vRg (img : Image) : Nat := img.globalNat 5
def Image.vOv (img : Image) : Nat := img.globalNat 6
def Image.tWarn (img : Image) : Int := (img.item (.global 7)).toInt
def Image.tTrip (img : Image) : Int := (img.item (.global 8)).toInt
def Image.hp (img : Image) (g : GroupId) : Nat := img.globalNat ⟨9 + g.val, by omega⟩
def Image.dt (img : Image) (g : GroupId) : Nat := img.globalNat ⟨13 + g.val, by omega⟩
def Image.mp (img : Image) (g : GroupId) : Nat := img.globalNat ⟨17 + g.val, by omega⟩
def Image.tCyc (img : Image) : Nat := img.globalNat 21
def Image.holdMax (img : Image) : Nat := img.globalNat 22
def Image.safeTmo (img : Image) : Nat := img.globalNat 23
def Image.ofsMax (img : Image) : Nat := img.globalNat 24
def Image.maskCauses (img : Image) : Word := img.item (.global 25)
def Image.maskFlags (img : Image) : Word := img.item (.global 26)
def Image.kpD (img : Image) (s : SlotId) : Nat := img.slotNat s 0
def Image.kpQ (img : Image) (s : SlotId) : Nat := img.slotNat s 1
def Image.kiD (img : Image) (s : SlotId) : Nat := img.slotNat s 2
def Image.kiQ (img : Image) (s : SlotId) : Nat := img.slotNat s 3
def Image.vlim (img : Image) (s : SlotId) : Nat := img.slotNat s 4
def Image.dtcAmp (img : Image) (s : SlotId) : Nat := img.slotNat s 5
def Image.dtcI (img : Image) (s : SlotId) : Nat := img.slotNat s 6
def Image.iMax (img : Image) (s : SlotId) : Nat := img.slotNat s 7
def Image.ioc (img : Image) (s : SlotId) : Nat := img.slotNat s 8
def Image.ocN (img : Image) (s : SlotId) : Nat := img.slotNat s 9
def Image.isumTol (img : Image) (s : SlotId) : Nat := img.slotNat s 10
def Image.isumN (img : Image) (s : SlotId) : Nat := img.slotNat s 11
def Image.ibalTol (img : Image) (s : SlotId) : Nat := img.slotNat s 12
def Image.tier (img : Image) (s : SlotId) : Nat := img.slotNat s 13
def Image.stopCycles (img : Image) (s : SlotId) : Nat := img.slotNat s 14

/-- PARTNER: a slot number, or none (code 255). -/
def Image.partner (img : Image) (s : SlotId) : Option SlotId :=
  let v := img.slotNat s 15
  if h : v < 8 then some ⟨v, h⟩ else none

/-- The function the leg map gives a leg. -/
def Image.legFunc (img : Image) (l : LegId) : LegFunc := legFuncOf (img.item (.leg l))

/-! ### Bytes, CRC, pages -/

/-- The first `n` words of an image as bytes. -/
def Image.bytes (img : Image) (n : Nat) : List Byte := (img.toList.take n).flatMap wordBytes

/-- The image CRC over bytes 0 to 509, seed 0xFFFF (R178). -/
def Image.crcOf (img : Image) : Word := crc 0xFFFF#16 (img.bytes 255)

/-- The image with bytes 510 and 511 set to the CRC of bytes 0 to 509 (R183, step 1). -/
def Image.sealed (img : Image) : Image := img.set 255 img.crcOf

/-- The configuration signature over the protected items (R180). -/
def Image.signatureOf (img : Image) : Word :=
  crc 0xFFFF#16 (protectedItems.flatMap fun i => wordBytes (img.item i))

/-- The group that holds a leg: group g holds legs 6g to 6g+5. -/
def groupOf (l : LegId) : GroupId := ⟨l.val / 6, by omega⟩

/-- The eight pages together as an image (R178). -/
def imageOfPages (pages : Vector Page 8) : Image :=
  Vector.ofFn fun i : Fin 256 => (pages[i.val / 32]'(by omega))[i.val % 32]'(by omega)

/-- Page p of an image. -/
def Image.page (img : Image) (p : Fin 8) : Page :=
  Vector.ofFn fun i : Fin 32 => img[32 * p.val + i.val]'(by omega)

/-! ### Defaults (R179, R53) -/

/-- Defaults of global items 0 to 26. -/
def globalDefaults : List Word :=
  [8000, 1024, 12800, 23040, 23680, 24320, 25600, 680, 800, 3125, 3125, 3125, 3125,
    100, 100, 100, 100] ++ [50, 50, 50, 50, 500, 3, 8, 512, 0, 0]

/-- Defaults of slot items 0 to 15. -/
def slotDefaults : List Word :=
  [256, 256, 0, 0, 30146, 0, 0, 0, 32767, 2, 1024, 4, 2048, 0, 200, 255]

/-- The CRC of the defaulted image (R178). -/
def defaultCrc : Word := 0x3E7D#16

/-- The word of the defaulted image at an index: every leg UNUSED, bytes not assigned 0. -/
def defaultWord (i : Nat) : Word :=
  if i = 255 then defaultCrc
  else if i < 27 then globalDefaults.getD i 0#16
  else if i < 56 then 0#16
  else if i < 184 then slotDefaults.getD ((i - 56) % 16) 0#16
  else 0#16

/-- The working image while RST is low and through LOADING (R178). -/
def Image.default : Image := Vector.ofFn fun i => defaultWord i.val

/-! ### Derivation of the slot fields (R2) -/

/-- A leg of a slot's leg set, with its phase and parallel index. -/
structure Seat where
  leg : LegId
  phase : Phase
  index : Fin 2
  deriving DecidableEq, Repr

/-- The leg set of a slot: the PHASE legs naming it, in leg order (R2). -/
def Image.seats (img : Image) (s : SlotId) : List Seat :=
  (List.finRange 24).filterMap fun l =>
    match img.legFunc l with
    | .phase t ph ix => if t = s then some ⟨l, ph, ix⟩ else none
    | _ => none

/-- The carrier group that holds a slot's legs, none for an unconfigured slot (R2). -/
def Image.slotGroup (img : Image) (s : SlotId) : Option GroupId :=
  (img.seats s).head?.map fun t => groupOf t.leg

/-! ### Validation (R182) -/

/-- The number of a slot's legs on a phase. -/
def Image.phaseCount (img : Image) (s : SlotId) (ph : Phase) : Nat :=
  ((img.seats s).filter fun t => t.phase = ph).length

/-- PHASE_COUNT: the slot is named by a PHASE leg and has 0 or more than 2 legs on a phase. -/
def Image.badPhaseCount (img : Image) (s : SlotId) : Bool :=
  !(img.seats s).isEmpty &&
    [Phase.u, .v, .w].any fun ph => img.phaseCount s ph = 0 || img.phaseCount s ph > 2

/-- DUPLICATE_LEG: the pairs of PHASE legs alike in slot, phase and index, lowest pair first. -/
def Image.duplicatePairs (img : Image) : List (LegId × LegId) :=
  (List.finRange 24).flatMap fun a => (List.finRange 24).filterMap fun b =>
    match img.legFunc a with
    | .phase _ _ _ => if a < b ∧ img.legFunc a = img.legFunc b then some (a, b) else none
    | _ => none

/-- GROUP_SPLIT: the slot's legs lie in more than one group. -/
def Image.badGroup (img : Image) (s : SlotId) : Bool :=
  (img.seats s).any fun t => some (groupOf t.leg) != img.slotGroup s

/-- PARTNER_PAIR: the slot's PARTNER is not none and names itself, a slot that does not name it back,
or either of the two is unconfigured or in another group. -/
def Image.badPartner (img : Image) (s : SlotId) : Bool :=
  match img.partner s with
  | none => false
  | some t =>
    t = s || img.partner t != some s || (img.slotGroup s).isNone || img.slotGroup s != img.slotGroup t

/-- DC_ORDER fails. -/
def Image.badDcOrder (img : Image) : Bool :=
  !(decide (img.vUv < img.vChOff) && decide (img.vChOff < img.vChOn) && decide (img.vChOn < img.vRg) &&
    decide (img.vRg < img.vOv)) || decide (img.vUv < 320)

/-- CARRIER: 4·MP > HP or 4·DT > HP. -/
def Image.badCarrier (img : Image) (g : GroupId) : Bool :=
  decide (4 * img.mp g > img.hp g) || decide (4 * img.dt g > img.hp g)

/-- The first failing check, as reason code and the number it names; none when every check passes
(R182). -/
def Image.validate (img : Image) : Option (Nat × Nat) :=
  match (List.finRange 8).find? img.badPhaseCount with
  | some s => some (1, s.val)
  | none => match img.duplicatePairs.head? with
    | some p => some (2, p.2.val)
    | none => match (List.finRange 8).find? img.badGroup with
      | some s => some (3, s.val)
      | none => match (List.finRange 8).find? img.badPartner with
        | some s => some (4, s.val)
        | none =>
          if img.badDcOrder then some (5, 0)
          else if ¬ img.tWarn < img.tTrip then some (6, 0)
          else ((List.finRange 4).find? img.badCarrier).map fun g => (7, g.val)

/-- The image judged at load complete, but for the completion mark (R178, conditions 2 to 4). -/
def Image.loadsGood (img : Image) : Bool :=
  img.crcOf == img[255] && allItems.all (fun i => i.valueOk (img.item i)) && img.validate.isNone

end Sys2Proof.Machine
end

