-- ==== Sys2Proof/Machine/State.lean ====
section
/-! DEFINITION. Everything the part holds, as plain data, and the state after a device reset. Each
field's docstring names the rule that gives it; INVENTORY.md lists them all. -/

namespace Sys2Proof.Machine

/-! ### Slots -/

/-- The seven slot states (R4). -/
inductive SlotState where
  | parked | claimed | calibrating | run | stopping | offHeld | fault
  deriving DecidableEq, Repr

/-- A permission, from least to most restrictive (R138). -/
inductive Permission where
  | allow | limit | stop | off
  deriving DecidableEq, Repr

/-- The slot fault causes (R152). -/
inductive Cause where
  | overcurrent | driver | stream | currentSum | legImbalance | offset | moduleOvertemp
  | dcUndervoltage | dcOvervoltage | partner | setpointStale
  deriving DecidableEq, Repr

/-- A first-fault record (R151, R153). -/
structure FirstFault where
  cause : Cause
  leg : Option LegId
  cycle : Word
  deriving DecidableEq, Repr

/-- The marks of a cycle (R29). -/
structure Marks where
  vsat : Bool
  tempLimited : Bool
  regenLimited : Bool
  deriving DecidableEq, Repr

/-- The accumulators of the cycle in progress (R29). -/
structure Accum where
  sumJ : Int
  sumD : Int
  sumQ : Int
  n : Nat
  deriving DecidableEq, Repr

/-- A calibration record: the sample count and one sum for each leg of the leg set, in leg order
(R81). -/
structure CalRecord where
  count : Nat
  sums : List Int
  deriving DecidableEq, Repr

/-- The period check state of a slot (R84). -/
structure PeriodCheck where
  sumCount : Nat
  sumMark : Bool
  imbCount : Vector Nat 3
  imbMark : Vector Bool 3
  deriving DecidableEq, Repr

/-- A slot record with the state the other blocks keep for the slot (R1, R29, R81, R84, R100, R122,
R133, R151). -/
structure Slot where
  /-- The slot state (R4). -/
  state : SlotState
  /-- The owner, none for a PARKED slot (R4). -/
  owner : Option DriveLink
  /-- The leg set (R2). -/
  seats : List Seat
  /-- The group (R2). -/
  group : Option GroupId
  /-- The partner (R2, R18). -/
  partner : Option SlotId
  /-- Staged tuning values, items 0 to 6 (R22). -/
  staged : Vector (Option Word) 7
  /-- Working setpoint in cu (R122). -/
  idW : Int
  iqW : Int
  /-- Angle for the slot's next period event, in au (R122). -/
  theta : BitVec 16
  /-- Speed in au per carrier period (R122). -/
  omega : Int
  /-- Angle present (R122). -/
  anglePresent : Bool
  /-- Integrators in vu·2^-16 (R29). -/
  intD : Int
  intQ : Int
  /-- Accumulators of the cycle in progress (R29). -/
  acc : Accum
  /-- The pair (sum_j, n) handed over at the last cycle close (R52, R104). -/
  handed : Int × Nat
  /-- Cycle averages (R29). -/
  avgD : Int
  avgQ : Int
  /-- Cycle marks (R29). -/
  marks : Marks
  /-- Reported marks (R29). -/
  reported : Marks
  /-- Reservation R_s in cu (R100). -/
  resv : Nat
  /-- Budget scale k_s, 0..32768 (R100). -/
  kScale : Nat
  /-- Held demand D_s in cu (R100). -/
  demand : Nat
  /-- Stored permission and limit (R133). -/
  storedPerm : Permission
  storedLimit : Nat
  /-- Effective permission and L_perm (R138). -/
  perm : Permission
  lPerm : Nat
  /-- Stop counter, and whether it was loaded at this instant (R133, R142). -/
  stopCount : Nat
  stopLoaded : Bool
  /-- Cause set (R152). -/
  causes : Word
  /-- First-fault record (R151). -/
  firstFault : Option FirstFault
  /-- Snapshot set (R156). -/
  snapCauses : Word
  /-- Calibration record (R81). -/
  cal : Option CalRecord
  /-- Period check state (R84). -/
  check : PeriodCheck
  deriving DecidableEq, Repr

/-! ### Legs and groups -/

/-- What a leg is doing (R55). -/
inductive Drive where
  | off | switching | high | low
  deriving DecidableEq, Repr

/-- The target of a leg (R55). -/
inductive Target where
  | none | high | low
  deriving DecidableEq, Repr

/-- One of the two switches of a leg. -/
inductive Switch where
  | high | low
  deriving DecidableEq, Repr

/-- A pending turn-on: the switch, and the count at which it is due (R55, R56). -/
structure TurnOn where
  switch : Switch
  due : Nat
  deriving DecidableEq, Repr

/-- A leg record with the measurement state of the leg (R55, R73, R74, R75, R77, R79). -/
structure Leg where
  /-- Function in force (R54). -/
  func : LegFunc
  drive : Drive
  /-- Active compare (R60). -/
  active : Option Nat
  /-- Shadow (R60). -/
  shadow : Option Nat
  target : Target
  pendingOn : Option TurnOn
  /-- The gate outputs GHn and GLn. -/
  gh : Bool
  gl : Bool
  /-- The last 1024 bits of the stream, newest first (R73). -/
  window : List Bool
  /-- Run length (R73). -/
  runLen : Nat
  lastBit : Option Bool
  /-- Period sample in cu (R74). -/
  sample : Int
  /-- Offset in cu (R75). -/
  offset : Int
  /-- The last fast value in cu (R77). -/
  fastValue : Int
  /-- Overcurrent count (R77). -/
  ocCount : Nat
  /-- Last driver-ready sample and accepted level, READY being true (R79). -/
  drdyLast : Option Bool
  ready : Bool
  deriving DecidableEq, Repr

/-- A carrier group with its modulator clock and temperature record (R57, R72, R87). -/
structure Group where
  /-- The count at which the carrier period in progress began (R57). -/
  periodStart : Nat
  /-- The count of the last rising edge of MCKg (R72). -/
  lastMck : Nat
  /-- Ones taken from TBSg since the last temperature sample event (R87). -/
  ones : Nat
  runLen : Nat
  lastBit : Option Bool
  /-- T in tu (R87). -/
  temp : Int
  /-- A temperature sample event has occurred since reset (R87). -/
  tempRead : Bool
  deriving DecidableEq, Repr

/-! ### The DC link, the Cycle Unit, the safety side -/

/-- The DC Link Monitor (R99). -/
structure DcLink where
  /-- The last 1024 bits of VBS, newest first (R92). -/
  window : List Bool
  vdc : Nat
  /-- The undervoltage condition (R94). -/
  uv : Bool
  /-- The overvoltage condition (R96). -/
  ov : Bool
  /-- The chopper state, ON being true (R97). -/
  chopper : Bool
  /-- The regeneration scale (R98). -/
  kr : Nat
  deriving DecidableEq, Repr

/-- The Cycle Unit (R116). -/
structure CycleUnit where
  lastSample : Option Bool
  /-- The accepted CYC level, HIGH being true. -/
  level : Bool
  number : Word
  /-- The reference instant, in counts from the release of RST. -/
  refInstant : Nat
  firstMade : Bool
  /-- Internal generation ACTIVE. -/
  genActive : Bool
  deriving DecidableEq, Repr

/-- The Safety Link and Torque-Off Control, but for the items kept for each slot (R133, R172). -/
structure Safety where
  lastAlive : Option Byte
  freshSeen : Bool
  expectedSig : Word
  freshness : Nat
  repeatMark : Bool
  mismatch : Bool
  toffLast : Option Bool
  /-- The accepted TOFF level, HIGH being true. -/
  toffHigh : Bool
  /-- The error code of R172. -/
  errCode : Nat
  deriving DecidableEq, Repr

/-! ### Links -/

/-- The receive state of a link (R163). -/
inductive RxState where
  | idle | shifting | waitDeselect
  deriving DecidableEq, Repr

/-- What all three links keep (R163, R173, R174). -/
structure Port where
  /-- The select pin is low. -/
  selLow : Bool
  rx : RxState
  /-- Bits received in this transfer. -/
  bitCount : Nat
  /-- The bytes received, byte 0 first, at most 255. -/
  bytes : List Byte
  /-- The byte being packed. -/
  cur : Byte
  /-- The outgoing bytes of this transfer. -/
  txBytes : List Byte
  /-- The number of the outgoing bit on the output. -/
  txPos : Nat
  /-- The output pin. -/
  sdo : Bool
  /-- The snapshot built at the last cycle event. -/
  snapshot : Option (List Byte)
  resetCount : Nat
  /-- A rising clock edge has come since the last fast sample instant (R173). -/
  clockSeen : Bool
  /-- The source of the link's global flag is present (R157). -/
  failed : Bool
  deriving DecidableEq, Repr

/-- A request: bytes 4 to 11 of its telegram (R168). The spare field is carried and not looked at
(R175). -/
structure Request where
  kind : Byte
  tag : Byte
  target : Byte
  spare : Byte
  arg1 : Word
  arg2 : Word
  deriving DecidableEq, Repr

/-- An entry of a drive telegram (R124, R175). -/
structure Entry where
  slot : SlotId
  cur : Bool
  ang : Bool
  idStar : Int
  iqStar : Int
  theta : BitVec 16
  omega : Int
  deriving DecidableEq, Repr

/-- An accepted drive telegram (R175). -/
structure Telegram where
  seq : Byte
  request : Request
  entries : List Entry
  deriving DecidableEq, Repr

/-- The held telegram with its taken mark (R167). -/
structure Held where
  telegram : Telegram
  taken : Bool
  deriving DecidableEq, Repr

/-- The response field (R169). -/
structure Response where
  kind : Byte
  tag : Byte
  code : Byte
  target : Byte
  value1 : Word
  value2 : Word
  deriving DecidableEq, Repr

/-- The six error marks of a drive link (R171). -/
structure ErrMarks where
  framing : Bool
  length : Bool
  type : Bool
  crc : Bool
  content : Bool
  overrun : Bool
  deriving DecidableEq, Repr

/-- Why a drive link's queue is not served (R170): not at all, a STORE in flight, or a completed
STORE whose result no snapshot has shown yet. -/
inductive StoreHold where
  | free | inFlight | reporting
  deriving DecidableEq, Repr

/-- What a drive link keeps, with Setpoint Intake's items for the link (R122, R167 to R171). -/
structure DriveRec where
  store : Option Held
  queue : List Request
  response : Response
  errs : ErrMarks
  seqEcho : Byte
  hold : StoreHold
  miss : Nat
  holdMark : Bool
  entryIgnored : List SlotId
  curIgnored : List SlotId
  deriving DecidableEq, Repr

/-! ### Image and Mode Control -/

/-- The part modes (R177). -/
inductive Mode where
  | reset | loading | setup | operate
  deriving DecidableEq, Repr

/-- The nonvolatile store (R178). -/
structure NvStore where
  pages : Vector Page 8
  /-- The completion mark. -/
  mark : Bool
  deriving DecidableEq, Repr

/-- A STORE in flight (R183): the link whose queue holds it, the copy, and the page being
programmed. -/
structure StoreOp where
  link : DriveLink
  copy : Image
  page : Fin 8
  deriving DecidableEq, Repr

/-! ### The whole part -/

/-- The state of the part and the queue of commands that wait. -/
structure State where
  slots : Vector Slot 8
  legs : Vector Leg 24
  groups : Vector Group 4
  dc : DcLink
  cyc : CycleUnit
  safety : Safety
  /-- Ports of the links A, B and S, in that order. -/
  ports : Vector Port 3
  /-- Drive Link A, then Drive Link B. -/
  drives : Vector DriveRec 2
  mode : Mode
  image : Image
  nv : NvStore
  loadBuf : Vector Page 8
  /-- Pages read so far in LOADING (R178). -/
  loadPage : Nat
  signature : Word
  /-- The source of IMAGE_BAD is present (R157). -/
  imageBad : Bool
  storeOp : Option StoreOp
  globalSet : Word
  /-- Counts since the release of RST, at the command last taken. -/
  now : Nat
  lastFast : Nat
  lastVdc : Nat
  lastTemp : Nat
  /-- Works owed at the present instant, first to last (log 4). -/
  agenda : List Work
  /-- The commands that wait, first in, first out. -/
  pending : List Instr
  deriving DecidableEq, Repr

/-! ### The state after a device reset -/

/-- R3, R29, R84, R100, R122, R133, R151. -/
def Slot.reset : Slot :=
  { state := .parked, owner := none, seats := [], group := none, partner := none
    staged := Vector.replicate 7 none
    idW := 0, iqW := 0, theta := 0#16, omega := 0, anglePresent := false
    intD := 0, intQ := 0, acc := ⟨0, 0, 0, 0⟩, handed := (0, 0), avgD := 0, avgQ := 0
    marks := ⟨false, false, false⟩, reported := ⟨false, false, false⟩
    resv := 0, kScale := 32768, demand := 0
    storedPerm := .off, storedLimit := 0, perm := .off, lPerm := 0
    stopCount := 0, stopLoaded := false
    causes := 0#16, firstFault := none, snapCauses := 0#16
    cal := none
    check := ⟨0, false, Vector.replicate 3 0, Vector.replicate 3 false⟩ }

/-- R55, R91; the period sample and the last fast value are a DESIGN CHOICE (log 6). An empty shadow holds
no value: the value 0 that R55 and R71 give beside it is not kept (the model's choice, log 29). -/
def Leg.reset : Leg :=
  { func := .unused, drive := .off, active := none, shadow := none, target := .none
    pendingOn := none, gh := false, gl := false
    window := [], runLen := 0, lastBit := none, sample := 0, offset := 0, fastValue := 0
    ocCount := 0, drdyLast := none, ready := false }

/-- R71, R87, R91. -/
def Group.reset : Group :=
  { periodStart := 0, lastMck := 0, ones := 0, runLen := 0, lastBit := none, temp := 0
    tempRead := false }

/-- R99. -/
def DcLink.reset : DcLink :=
  { window := [], vdc := 0, uv := true, ov := false, chopper := false, kr := 32768 }

/-- R116. -/
def CycleUnit.reset : CycleUnit :=
  { lastSample := none, level := false, number := 0#16, refInstant := 0, firstMade := false
    genActive := false }

/-- R133, R174. -/
def Safety.reset : Safety :=
  { lastAlive := none, freshSeen := false, expectedSig := 0#16, freshness := 0
    repeatMark := false, mismatch := false, toffLast := none, toffHigh := false, errCode := 0 }

/-- R174; the select pin high is a DESIGN CHOICE (log 9). -/
def Port.reset : Port :=
  { selLow := false, rx := .idle, bitCount := 0, bytes := [], cur := 0#8, txBytes := []
    txPos := 0, sdo := false, snapshot := none, resetCount := 0, clockSeen := false
    failed := false }

/-- The response field cleared to zeros (R169, R173, R174). -/
def Response.zero : Response := ⟨0#8, 0#8, 0#8, 0#8, 0#16, 0#16⟩

/-- The six error marks clear. -/
def ErrMarks.clear : ErrMarks := ⟨false, false, false, false, false, false⟩

/-- R122, R174. -/
def DriveRec.reset : DriveRec :=
  { store := none, queue := [], response := Response.zero, errs := ErrMarks.clear
    seqEcho := 0#8, hold := .free, miss := 0, holdMark := false, entryIgnored := []
    curIgnored := [] }

/-- Eight pages of zeros: a DESIGN CHOICE for a store never programmed and for the load buffer
(log 6). -/
def blankPages : Vector Page 8 := Vector.replicate 8 (Vector.replicate 32 0#16)

/-- The part right after a device reset at its first power-up, with RST low: every value as the
rules give it, and those of log 6 and log 9 where they give none. -/
def State.reset : State :=
  { slots := Vector.replicate 8 Slot.reset
    legs := Vector.replicate 24 Leg.reset
    groups := Vector.replicate 4 Group.reset
    dc := DcLink.reset
    cyc := CycleUnit.reset
    safety := Safety.reset
    ports := Vector.replicate 3 Port.reset
    drives := Vector.replicate 2 DriveRec.reset
    mode := .reset
    image := Image.default
    nv := ⟨blankPages, false⟩
    loadBuf := blankPages
    loadPage := 0
    signature := 0#16
    imageBad := false
    storeOp := none
    globalSet := 0x0003#16
    now := 0
    lastFast := 0
    lastVdc := 0
    lastTemp := 0
    agenda := []
    pending := [] }

/-! ### What stops the model -/

/-- Reasons for a fault. The spec stops the part in no command, and no meaning raises this one; it
names the case in which one would (safe). -/
inductive Fault where
  /-- Raised by nothing: reserved for a command that the spec would let stop the part. -/
  | stopped
  deriving DecidableEq, Repr

/-- Reasons for a refusal. -/
inductive Refusal where
  /-- Raised by exec's arm of a command that has no meaning yet (safe); no arm does. -/
  | notModelled (mnemonic : String)
  deriving DecidableEq, Repr

end Sys2Proof.Machine
end

