-- ==== Sys2Proof/Machine/Access.lean ====
section
/-! DEFINITION. Reading and replacing the records of State: the only places where a record's home is
named. -/

namespace Sys2Proof.Machine

/-- Where a link's port stands in `ports`. -/
def linkIndex : Link → Fin 3
  | .a => 0
  | .b => 1
  | .s => 2

/-- Where a drive link's record stands in `drives`. -/
def driveIndex : DriveLink → Fin 2
  | .a => 0
  | .b => 1

/-- Where a phase's count and mark stand (R84). -/
def phaseIndex : Phase → Fin 3
  | .u => 0
  | .v => 1
  | .w => 2

def State.slot (s : State) (i : SlotId) : Slot := s.slots[i]
def State.leg (s : State) (l : LegId) : Leg := s.legs[l]
def State.group (s : State) (g : GroupId) : Group := s.groups[g]
def State.port (s : State) (k : Link) : Port := s.ports[linkIndex k]
def State.drive (s : State) (d : DriveLink) : DriveRec := s.drives[driveIndex d]

/-- The state with one slot's record replaced. -/
def State.setSlot (s : State) (i : SlotId) (x : Slot) : State := { s with slots := s.slots.set i x }

/-- The state with one leg's record replaced. -/
def State.setLeg (s : State) (l : LegId) (x : Leg) : State := { s with legs := s.legs.set l x }

/-- The state with one group's record replaced. -/
def State.setGroup (s : State) (g : GroupId) (x : Group) : State :=
  { s with groups := s.groups.set g x }

/-- The state with one port replaced. -/
def State.setPort (s : State) (k : Link) (x : Port) : State :=
  { s with ports := s.ports.set (linkIndex k) x }

/-- The state with one drive link's record replaced. -/
def State.setDrive (s : State) (d : DriveLink) (x : DriveRec) : State :=
  { s with drives := s.drives.set (driveIndex d) x }

/-- Every slot record changed by its number and value. -/
def State.mapSlots (s : State) (f : SlotId → Slot → Slot) : State :=
  { s with slots := Vector.ofFn fun i => f i s.slots[i] }

/-- Every leg record changed by its number and value. -/
def State.mapLegs (s : State) (f : LegId → Leg → Leg) : State :=
  { s with legs := Vector.ofFn fun l => f l s.legs[l] }

/-- Every group record changed by its number and value. -/
def State.mapGroups (s : State) (f : GroupId → Group → Group) : State :=
  { s with groups := Vector.ofFn fun g => f g s.groups[g] }

/-- Every slot number in ascending order. -/
def allSlots : List SlotId := List.finRange 8

/-- Every leg number in ascending order. -/
def allLegs : List LegId := List.finRange 24

end Sys2Proof.Machine
end

