-- ==== Sys2Proof/Machine/Flags.lean ====
section
/-! DEFINITION. The codes under which states, permissions and causes are reported, the sticky sets of
the Fault Collector with the source of each cause and flag (R152, R157), and the fault line (R160). -/

namespace Sys2Proof.Machine

/-- The state codes of R4. -/
def SlotState.code : SlotState → Nat
  | .parked => 0
  | .claimed => 1
  | .calibrating => 2
  | .run => 3
  | .stopping => 4
  | .offHeld => 5
  | .fault => 6

/-- The active states (R4). -/
def SlotState.isActive : SlotState → Bool
  | .calibrating | .run | .stopping => true
  | .parked | .claimed | .offHeld | .fault => false

/-- The states in which the loop runs (R4, R26). -/
def SlotState.isRunning : SlotState → Bool
  | .run | .stopping => true
  | .parked | .claimed | .calibrating | .offHeld | .fault => false

/-- The permission codes (R135, R138); also their rank from least to most restrictive. -/
def Permission.code : Permission → Nat
  | .allow => 0
  | .limit => 1
  | .stop => 2
  | .off => 3

/-- Decoding a permission code: an unknown code is read as OFF (R135). -/
def Permission.ofCode (n : Nat) : Permission :=
  if n = 0 then .allow else if n = 1 then .limit else if n = 2 then .stop else .off

/-- ALLOW or LIMIT. -/
def Permission.permits : Permission → Bool
  | .allow | .limit => true
  | .stop | .off => false

/-- The owner codes: 0 none, 1 A, 2 B (R5). -/
def ownerCode : Option DriveLink → Nat
  | none => 0
  | some .a => 1
  | some .b => 2

/-- The drive codes (R55). -/
def Drive.code : Drive → Nat
  | .off => 0
  | .switching => 1
  | .high => 2
  | .low => 3

/-- The function codes of a leg (R53). -/
def LegFunc.code : LegFunc → Nat
  | .unused => 0
  | .phase _ _ _ => 1
  | .chopper => 2
  | .forced => 3

/-- The mode codes (R171); RESET has none. -/
def Mode.code : Mode → Nat
  | .reset => 0
  | .loading => 1
  | .setup => 2
  | .operate => 3

/-! ### Causes -/

/-- The cause codes of R152. -/
def Cause.code : Cause → Nat
  | .overcurrent => 0
  | .driver => 1
  | .stream => 2
  | .currentSum => 3
  | .legImbalance => 4
  | .offset => 5
  | .moduleOvertemp => 6
  | .dcUndervoltage => 7
  | .dcOvervoltage => 8
  | .partner => 9
  | .setpointStale => 10

/-- Every cause, by code. -/
def allCauses : List Cause :=
  [.overcurrent, .driver, .stream, .currentSum, .legImbalance, .offset, .moduleOvertemp,
    .dcUndervoltage, .dcOvervoltage, .partner, .setpointStale]

/-- A set with the one bit of a code. -/
def bitOf (code : Nat) : Word := BitVec.ofNat 16 (2 ^ code)

/-- A cause's bit (R152). -/
def Cause.bit (c : Cause) : Word := bitOf c.code

/-- Whether a stream of this run length is stuck (R78, R87). -/
def stuck (runLen : Nat) : Bool := decide (Config.stuckRun ≤ runLen)

/-- The phase of a leg in a slot's leg set. -/
def Slot.phaseOf (sl : Slot) (l : LegId) : Option Phase :=
  (sl.seats.find? fun t => t.leg = l).map Seat.phase

/-- Whether the source of a slot's cause is present; a leg cause is tested on the leg of the slot's
first-fault record (R152). -/
def State.causePresent (s : State) (i : SlotId) (leg : Option LegId) (c : Cause) : Bool :=
  match c with
  | .overcurrent => leg.any fun l => decide (s.image.ioc i < (s.leg l).fastValue.natAbs)
  | .driver => leg.any fun l => !(s.leg l).ready
  | .stream => leg.any fun l => stuck (s.leg l).runLen
  | .currentSum => (s.slot i).check.sumMark
  | .legImbalance =>
    leg.any fun l => ((s.slot i).phaseOf l).any fun ph => (s.slot i).check.imbMark[phaseIndex ph]
  | .offset => false
  | .moduleOvertemp => (s.slot i).group.any fun g => decide (s.image.tTrip ≤ (s.group g).temp)
  | .dcUndervoltage => s.dc.uv
  | .dcOvervoltage => s.dc.ov
  | .partner => (s.slot i).partner.any fun p => (s.slot p).state == .fault
  | .setpointStale => false

/-- The bits of every cause whose source is not present. -/
def State.goneCauses (s : State) (i : SlotId) : Word :=
  allCauses.foldl
    (fun w c => if s.causePresent i ((s.slot i).firstFault.bind FirstFault.leg) c then w else w ||| c.bit)
    0#16

/-- The Fault Collector removes the gone causes of a slot; a set left empty takes its record with
it (R154). -/
def State.removeGone (s : State) (i : SlotId) : State :=
  let left := (s.slot i).causes &&& ~~~(s.goneCauses i)
  s.setSlot i { s.slot i with
    causes := left
    firstFault := if left = 0#16 then none else (s.slot i).firstFault }

/-! ### Global flags -/

/-- The global flags (R157). -/
inductive Flag where
  | powerUp | dcUv | dcOv | cycLost | safetyLost | signatureMismatch | imageBad | tempWarn
  | linkA | linkB | linkS | crossRequest
  deriving DecidableEq, Repr

/-- The bit positions of R157. -/
def Flag.code : Flag → Nat
  | .powerUp => 0
  | .dcUv => 1
  | .dcOv => 2
  | .cycLost => 3
  | .safetyLost => 4
  | .signatureMismatch => 5
  | .imageBad => 6
  | .tempWarn => 7
  | .linkA => 8
  | .linkB => 9
  | .linkS => 10
  | .crossRequest => 11

/-- Every flag, by bit position. -/
def allFlags : List Flag :=
  [.powerUp, .dcUv, .dcOv, .cycLost, .safetyLost, .signatureMismatch, .imageBad, .tempWarn,
    .linkA, .linkB, .linkS, .crossRequest]

/-- A flag's bit. -/
def Flag.bit (f : Flag) : Word := bitOf f.code

/-- A link's flag. -/
def linkFlag : Link → Flag
  | .a => .linkA
  | .b => .linkB
  | .s => .linkS

/-- The freshness counter stands at SAFE_TMO. A counter above a SAFE_TMO newly written in SETUP, or newly loaded
with the working image at load complete, is not below it, so it counts as standing there until the next
step brings it down (R137, R138, log 15). -/
def State.safetyLost (s : State) : Bool := decide (s.image.safeTmo ≤ s.safety.freshness)

/-- Any group's T exceeds T_WARN (R90). -/
def State.tempWarm (s : State) : Bool :=
  (List.finRange 4).any fun g => decide (s.image.tWarn < (s.group g).temp)

/-- Whether the source of a global flag is present (R157). -/
def State.flagPresent (s : State) (f : Flag) : Bool :=
  match f with
  | .powerUp => false
  | .dcUv => s.dc.uv
  | .dcOv => s.dc.ov
  | .cycLost => s.cyc.genActive
  | .safetyLost => s.safetyLost
  | .signatureMismatch => s.safety.mismatch
  | .imageBad => s.imageBad
  | .tempWarn => s.tempWarm
  | .linkA => (s.port .a).failed
  | .linkB => (s.port .b).failed
  | .linkS => (s.port .s).failed
  | .crossRequest => false

/-- The bits of every flag whose source is not present. -/
def State.goneFlags (s : State) : Word :=
  allFlags.foldl (fun w f => if s.flagPresent f then w else w ||| f.bit) 0#16

/-- A flag entered into the global set (R158). -/
def State.setFlag (s : State) (f : Flag) : State := { s with globalSet := s.globalSet ||| f.bit }

/-- A flag entered into the global set when its source is present. -/
def State.setFlagIf (s : State) (b : Bool) (f : Flag) : State := if b then s.setFlag f else s

/-! ### The fault line and the other views -/

/-- FLT is held low while an unmasked cause or flag stands (R160, R161). -/
def State.fltLow (s : State) : Bool :=
  (allSlots.any fun i => (s.slot i).causes &&& ~~~s.image.maskCauses != 0#16) ||
    s.globalSet &&& ~~~s.image.maskFlags != 0#16

/-- The legs-off indication of a slot (R66). -/
def State.legsOff (s : State) (i : SlotId) : Bool :=
  (s.slot i).seats.all fun t => (s.leg t.leg).drive == .off

/-- The modulator clocks run from the release of RST (R72). -/
def State.mckRunning (s : State) : Bool := s.mode != .reset

/-- The applied scale of a slot: for a pair member the lesser of the two (R20, R100). -/
def State.appliedScale (s : State) (i : SlotId) : Nat :=
  match (s.slot i).partner with
  | none => (s.slot i).kScale
  | some p => min (s.slot i).kScale (s.slot p).kScale

/-- L_temp of a slot (R88). It follows a change of T_WARN, T_TRIP or the slot's group at once (the model's
choice, log 30). -/
def State.lTemp (s : State) (i : SlotId) : Int :=
  match (s.slot i).group with
  | none => 0
  | some g =>
    let t := (s.group g).temp
    let imax : Int := s.image.iMax i
    if !(s.group g).tempRead then 0
    else if t ≤ s.image.tWarn then imax
    else if t < s.image.tTrip then imax * (s.image.tTrip - t) / (s.image.tTrip - s.image.tWarn)
    else 0

/-- The slot whose leg set holds a leg (R76). -/
def State.slotOfLeg (s : State) (l : LegId) : Option SlotId :=
  allSlots.find? fun i => (s.slot i).seats.any fun t => t.leg = l

/-- The lead of a slot's pair, the slot itself when it has no partner (R18). -/
def State.leadOf (s : State) (i : SlotId) : SlotId :=
  match (s.slot i).partner with
  | none => i
  | some p => if p < i then p else i

/-- A slot that has a partner and is the higher-numbered of the two (R18, R126). -/
def State.isFollower (s : State) (i : SlotId) : Bool :=
  (s.slot i).partner.any fun p => decide (p < i)

end Sys2Proof.Machine
end

