-- ==== Sys2Proof/Machine/Ops.lean ====
section
/-! DEFINITION. The operations that the commands share: dead time and turn-off of legs (R56, R64),
fault notices (R16, R153), the moves of a slot that R12, R13, R15 and R17 lay down, the effective
permission (R138 to R140), the signature comparison (R136), and the entry into OPERATE (R2, R58). -/

namespace Sys2Proof.Machine

/-! ### Legs -/

/-- A change of target with dead time DT at count `now` (R56). A target that stays as it is leaves
the leg undisturbed. -/
def Leg.setTarget (x : Leg) (dt now : Nat) (t : Target) : Leg :=
  if x.target = t then x
  else
    match t with
    | .none => { x with target := .none, gh := false, gl := false, pendingOn := none }
    | .high =>
      if dt = 0 then { x with target := .high, gl := false, gh := true, pendingOn := none }
      else { x with target := .high, gl := false, pendingOn := some ⟨.high, now + dt⟩ }
    | .low =>
      if dt = 0 then { x with target := .low, gh := false, gl := true, pendingOn := none }
      else { x with target := .low, gh := false, pendingOn := some ⟨.low, now + dt⟩ }

/-- A leg turned off: drive OFF, target NONE, both switches off, the pending turn-on cancelled, no
active compare, the shadow emptied (R64, R65). -/
def Leg.turnOff (x : Leg) : Leg :=
  { x with drive := .off, target := .none, gh := false, gl := false, pendingOn := none,
           active := none, shadow := none }

/-- The switch of a pending turn-on commanded on (R56). -/
def Leg.completeTurnOn (x : Leg) (sw : Switch) : Leg :=
  match sw with
  | .high => { x with gh := true, pendingOn := none }
  | .low => { x with gl := true, pendingOn := none }

/-- The pending turn-on of a leg has fallen due (R56). -/
def State.turnOnDue (s : State) (l : LegId) : Bool :=
  (s.leg l).pendingOn.any fun p => decide (p.due ≤ s.now)

/-- A pending turn-on that has fallen due is carried out; one that a change of target has cancelled, or put
off, is not (R56). -/
def State.turnOnWork (s : State) (l : LegId) : State :=
  if s.turnOnDue l then
    match (s.leg l).pendingOn with
    | some p => s.setLeg l ((s.leg l).completeTurnOn p.switch)
    | none => s
  else s

/-- The ideal state of a SWITCHING leg with compare `c` at count `n` of a period of half period `hp`:
count n stands at n on the rise and at 2·HP - 1 - n on the fall, and the leg is HIGH at or above
HP - C (R57, R61). -/
def idealState (c hp n : Nat) : Target :=
  let stands := if n < hp then n else 2 * hp - 1 - n
  if hp - c ≤ stands then .high else .low

/-- The dead time of the group that holds a leg (R59). -/
def State.deadTime (s : State) (l : LegId) : Nat := s.image.dt (groupOf l)

/-- A leg driven HIGH, LOW or OFF, its target carried out with dead time (R67, R69). -/
def Leg.drivenTo (x : Leg) (dt now : Nat) : Drive → Leg
  | .high => { x.setTarget dt now .high with drive := .high }
  | .low => { x.setTarget dt now .low with drive := .low }
  | .off => x.turnOff
  | .switching => x

/-- A chopper leg follows the chopper state (R67). -/
def Leg.followChopper (x : Leg) (dt now : Nat) (on : Bool) : Leg :=
  x.drivenTo dt now (if on then .high else .off)

/-- A leg takes a new leg-map entry: when the function changes, the leg is first turned off, and a
chopper leg then takes the chopper state (R54). -/
def Leg.takeFunction (x : Leg) (dt now : Nat) (chopper : Bool) (f : LegFunc) : Leg :=
  if x.func.code = f.code then { x with func := f }
  else
    match f with
    | .chopper => ({ x.turnOff with func := .chopper }).followChopper dt now chopper
    | _ => { x.turnOff with func := f }

/-- The legs of a slot's leg set are turned off (R64). -/
def State.slotLegsOff (s : State) (i : SlotId) : State :=
  s.mapLegs fun l x => if (s.slot i).seats.any fun t => t.leg = l then x.turnOff else x

/-! ### Slots -/

/-- The period checks at 0 and clear (R84). -/
def PeriodCheck.clear : PeriodCheck := ⟨0, false, Vector.replicate 3 0, Vector.replicate 3 false⟩

/-- A slot record that has left the active states for `st`: loop stopped with integrators 0, stop
counter 0, calibration abandoned, period checks cleared (R16, R17, R28, R83, R84, R141). -/
def Slot.leave (x : Slot) (st : SlotState) : Slot :=
  { x with state := st, intD := 0, intQ := 0, stopCount := 0, stopLoaded := false, cal := none,
           check := PeriodCheck.clear }

/-- A slot leaves the active states for `st` with its legs off at once (R17). -/
def State.haltSlot (s : State) (i : SlotId) (st : SlotState) : State :=
  (s.slotLegsOff i).setSlot i ((s.slot i).leave st)

/-- The Fault Collector records a cause, writing the first-fault record if the set was empty, and the
slot goes to FAULT (R16, R153). -/
def State.recordFault (s : State) (i : SlotId) (c : Cause) (leg : Option LegId) : State :=
  let t := s.haltSlot i .fault
  t.setSlot i { t.slot i with
    causes := (s.slot i).causes ||| c.bit
    firstFault := if (s.slot i).causes = 0#16 then some ⟨c, leg, s.cyc.number⟩
      else (s.slot i).firstFault }

/-- A notice for a slot alone: recorded in an active state, without effect in any other (R16). -/
def State.noticeAlone (s : State) (i : SlotId) (c : Cause) (leg : Option LegId) : State :=
  if (s.slot i).state.isActive then s.recordFault i c leg else s

/-- Slot Control takes a fault notice: the slot records it, and its partner goes to FAULT with
PARTNER in the same event (R16, R153). -/
def State.takeNotice (s : State) (i : SlotId) (c : Cause) (leg : Option LegId) : State :=
  if (s.slot i).state.isActive then
    let t := s.recordFault i c leg
    match (s.slot i).partner with
    | none => t
    | some p => t.noticeAlone p .partner none
  else s

/-- Notices of one cause, with no leg, for a list of slots in order. -/
def State.takeNotices (s : State) (order : List SlotId) (c : Cause) : State :=
  order.foldl (fun s i => s.takeNotice i c none) s

/-- The slots, those that `order` names first and in its order (log 5). -/
def slotsInOrder (order : List SlotId) : List SlotId :=
  let first := order.dedup
  first ++ allSlots.filter fun i => !first.contains i

/-- TOFF accepted low moves one slot: OFF_HELD from the active states, its working setpoint cleared
(R13). -/
def State.toffSlot (s : State) (i : SlotId) : State :=
  if (s.slot i).state.isActive then
    let t := s.haltSlot i .offHeld
    t.setSlot i { t.slot i with idW := 0, iqW := 0 }
  else s

/-- The OFF_HELD exit test on every slot in OFF_HELD (R15). -/
def State.exitTest (s : State) : State :=
  s.mapSlots fun _ x =>
    if x.state = .offHeld ∧ s.safety.toffHigh = true ∧ x.perm.permits = true then
      { x with state := .claimed }
    else x

/-! ### Permissions -/

/-- Slot Control is told of a slot's new effective permission and moves the slot (R12). The stop
counter is loaded with the lead's STOP_CYCLES (R14, R141). -/
def State.movePermission (s : State) (i : SlotId) (p : Permission) : State :=
  match (s.slot i).state, p with
  | .calibrating, .stop => s.haltSlot i .offHeld
  | .calibrating, .off => s.haltSlot i .offHeld
  | .run, .stop =>
    s.setSlot i { s.slot i with
      state := .stopping, stopCount := s.image.stopCycles (s.leadOf i), stopLoaded := true }
  | .run, .off => s.haltSlot i .offHeld
  | .stopping, .off => s.haltSlot i .offHeld
  | .stopping, .allow => s.setSlot i { s.slot i with state := .run, stopCount := 0, stopLoaded := false }
  | .stopping, .limit => s.setSlot i { s.slot i with state := .run, stopCount := 0, stopLoaded := false }
  | _, _ => s

/-- The permission and limit that a slot, or a pair, is given by the stored permissions: the more
restrictive of the two, and under LIMIT the lower limit of the members that are LIMIT (R138,
step 2). -/
def State.storedPermission (s : State) (i : SlotId) : Permission × Nat :=
  let x := s.slot i
  match x.partner with
  | none => (x.storedPerm, x.storedLimit)
  | some q =>
    let y := s.slot q
    if x.storedPerm = y.storedPerm then (x.storedPerm, min x.storedLimit y.storedLimit)
    else if x.storedPerm.code < y.storedPerm.code then (y.storedPerm, y.storedLimit)
    else (x.storedPerm, x.storedLimit)

/-- The effective permission and L_perm of a slot (R138). -/
def State.formPermission (s : State) (i : SlotId) : Permission × Nat :=
  if s.safety.freshSeen = false ∨ s.mode ≠ .operate ∨ s.safety.mismatch = true then (.off, 0)
  else
    match s.storedPermission i with
    | (.allow, _) => if s.safetyLost then (.stop, 0) else (.allow, 0)
    | (.limit, n) => if s.safetyLost then (.stop, 0) else (.limit, n)
    | (.stop, _) => (.stop, 0)
    | (.off, _) => (.off, 0)

/-- One slot's effective permission and L_perm are formed afresh, and Slot Control is told when the
permission changes (R139 step 4, R140). -/
def State.reformSlot (s : State) (i : SlotId) : State :=
  let f := s.formPermission i
  let t := s.setSlot i { s.slot i with perm := f.1, lPerm := f.2 }
  if (s.slot i).perm = f.1 then t else t.movePermission i f.1

/-- The effective permissions of all eight slots formed afresh (R139, R140). -/
def State.reformPermissions (s : State) : State := allSlots.foldl State.reformSlot s

/-- The signature comparison, made only once a fresh telegram has been seen (R136). -/
def State.compareSignature (s : State) : State :=
  if s.safety.freshSeen then
    let m := s.safety.expectedSig != s.signature
    ({ s with safety := { s.safety with mismatch := m } }).setFlagIf m .signatureMismatch
  else s

/-! ### Entering OPERATE -/

/-- Slot Control derives leg set, group and partner of every slot from the working image (R2). -/
def State.deriveSlots (s : State) : State :=
  s.mapSlots fun i x =>
    { x with seats := s.image.seats i, group := s.image.slotGroup i, partner := s.image.partner i }

/-- The four carrier counters start together at 0 (R58). -/
def State.startCarriers (s : State) : State := s.mapGroups fun _ x => { x with periodStart := s.now }

/-- The counters stop: every shadow is emptied and every PHASE leg's active compare becomes none
(R58). -/
def State.stopCarriers (s : State) : State :=
  s.mapLegs fun _ x =>
    match x.func with
    | .phase _ _ _ => { x with shadow := none, active := none }
    | _ => { x with shadow := none }

/-- The count of the period in progress (R57). -/
def State.carrierCount (s : State) (g : GroupId) : Nat := s.now - (s.group g).periodStart

/-- The value at which a group's counter stands in the count in progress; 0 when it is stopped
(R57, R58). -/
def State.carrierValue (s : State) (g : GroupId) : Nat :=
  if s.mode = .operate then
    let n := s.carrierCount g
    if n < s.image.hp g then n else 2 * s.image.hp g - 1 - n
  else 0

end Sys2Proof.Machine
end

