-- ==== Sys2Proof/Machine/Budget.lean ====
section
/-! DEFINITION. The close of a cycle (R52) and the allocation of the Budget Allocator (R104 to
R111). -/

namespace Sys2Proof.Machine

/-- A slot record whose cycle is closed: the pair handed over, the averages formed, the marks copied,
the sums restarted (R52). -/
def Slot.closeCycle (x : Slot) : Slot :=
  { x with
    handed := (x.acc.sumJ, x.acc.n)
    avgD := if x.acc.n = 0 then 0 else truncDiv x.acc.sumD x.acc.n
    avgQ := if x.acc.n = 0 then 0 else truncDiv x.acc.sumQ x.acc.n
    reported := x.marks
    acc := ⟨0, 0, 0, 0⟩
    marks := ⟨false, false, false⟩ }

/-- The Loop Engine closes the cycle of every slot (R52). -/
def State.closeCycle (s : State) : State := s.mapSlots fun _ x => x.closeCycle

/-- J_s from the pair handed over (R105). -/
def avgDc (p : Int × Nat) : Int := if p.2 = 0 then 0 else truncDiv p.1 p.2

/-- The demand of a slot; at an applied scale of 0 the held demand stands, for a slot that regenerates too (R106;
that the held demand goes before the 0 of a regenerating slot is the model's choice, log 32). -/
def demandOf (j : Int) (ka held : Nat) : Nat :=
  if ka = 0 then held else min 32767 ((max j 0).toNat * 32768 / ka)

/-- What the allocation works with for one participating slot: its tier, R_s, D_s, its k_s before,
and the share given so far. -/
structure Share where
  tier : Nat
  resv : Nat
  demand : Nat
  k : Nat
  given : Nat
  deriving DecidableEq, Repr

/-- The first stage: the demand up to the reservation (R108). -/
def Share.first (x : Share) : Share := { x with given := min x.demand x.resv }

/-- The unmet demand of a slot of a tier, 0 for the slots of other tiers (R109). -/
def Share.unmet (x : Share) (tier : Nat) : Nat := if x.tier = tier then x.demand - x.given else 0

/-- One tier of the second stage: the shares and what remains after it (R109). -/
def tierStage (tier : Nat) (xs : List (SlotId × Share)) (rem : Nat) : List (SlotId × Share) × Nat :=
  let total := (xs.map fun p => p.2.unmet tier).sum
  if total ≤ rem then
    (xs.map fun p => (p.1, { p.2 with given := p.2.given + p.2.unmet tier }), rem - total)
  else
    (xs.map fun p => (p.1, { p.2 with given := p.2.given + p.2.unmet tier * rem / total }), 0)

/-- The second stage, tiers 0 to 3 in order (R109). -/
def secondStage (xs : List (SlotId × Share)) (rem : Nat) : List (SlotId × Share) :=
  (([0, 1, 2, 3] : List Nat).foldl (fun p tier => tierStage tier p.1 p.2) (xs, rem)).1

/-- The target scale (R110). -/
def targetScale (demand given : Nat) : Nat :=
  if demand = 0 ∨ demand ≤ given then 32768 else 32768 * given / demand

/-- The new k_s: a fall at once, a rise by at most K_RISE (R111). -/
def nextScale (target k kRise : Nat) : Nat := if target < k then target else min target (k + kRise)

/-- The participating slots (R104). -/
def State.participants (s : State) : List SlotId :=
  allSlots.filter fun i => (s.slot i).state.isRunning

/-- J_s of a slot in this allocation (R105). -/
def State.avgDcOf (s : State) (i : SlotId) : Int := avgDc (s.slot i).handed

/-- D_s of a participating slot in this allocation (R106). -/
def State.newDemand (s : State) (i : SlotId) : Nat :=
  demandOf (s.avgDcOf i) (s.appliedScale i) (s.slot i).demand

/-- The available current A = I_IN + Q (R107). -/
def State.available (s : State) : Nat :=
  s.image.iIn + (s.participants.map fun i => (max (-(s.avgDcOf i)) 0).toNat).sum

/-- The shares after the first stage (R108). -/
def State.firstShares (s : State) : List (SlotId × Share) :=
  s.participants.map fun i =>
    (i, Share.first ⟨s.image.tier i, (s.slot i).resv, s.newDemand i, (s.slot i).kScale, 0⟩)

/-- The shares after both stages (R109). -/
def State.shares (s : State) : List (SlotId × Share) :=
  secondStage s.firstShares (s.available - (s.firstShares.map fun p => p.2.given).sum)

/-- The allocation of a cycle event in OPERATE: D_s and k_s of every participating slot (R104 to
R111). -/
def State.allocate (s : State) : State :=
  if s.mode = .operate then
    s.shares.foldl
      (fun t p => t.setSlot p.1 { t.slot p.1 with
        demand := p.2.demand
        kScale := nextScale (targetScale p.2.demand p.2.given) p.2.k s.image.kRise })
      s
  else s

end Sys2Proof.Machine
end

