-- ==== Sys2Proof/Machine/Operands.lean ====
section
/-! DEFINITION. Reading the telegrams: the acceptance test of R164 and the layouts of R175. -/

namespace Sys2Proof.Machine

/-- The five checks of R164. -/
inductive CheckFail where
  | framing | length | type | crc | content
  deriving DecidableEq, Repr

/-- The Safety Link's error codes (R172). -/
def CheckFail.code : CheckFail → Nat
  | .framing => 1
  | .length => 2
  | .type => 3
  | .crc => 4
  | .content => 5

/-- Byte i of a telegram. -/
def byteAt (bytes : List Byte) (i : Nat) : Byte := bytes.getD i 0#8

/-- The two-byte field at byte i, high byte first. -/
def wordAt (bytes : List Byte) (i : Nat) : Word := wordOf (byteAt bytes i) (byteAt bytes (i + 1))

/-- The length field. -/
def lengthField (bytes : List Byte) : Nat := (byteAt bytes 1).toNat

/-- The least length of a command telegram: 14 on a drive link, 31 on the Safety Link (R164). -/
def minLength : Link → Nat
  | .a | .b => 14
  | .s => 31

/-- The type of a command telegram: 0x31 on a drive link, 0x51 on the Safety Link (R164). -/
def commandType : Link → Byte
  | .a | .b => 0x31#8
  | .s => 0x51#8

/-- The slot bytes of a drive telegram's entries (R175). -/
def entrySlots (bytes : List Byte) : List Nat :=
  (List.range (byteAt bytes 3).toNat).map fun i => (byteAt bytes (12 + 10 * i)).toNat

/-- The CONTENT check (R164). -/
def contentOk (k : Link) (bytes : List Byte) : Bool :=
  match k with
  | .a | .b =>
    decide ((byteAt bytes 3).toNat ≤ 8) &&
      decide (lengthField bytes = 14 + 10 * (byteAt bytes 3).toNat) &&
      (entrySlots bytes).all (fun n => decide (n ≤ 7)) && decide (entrySlots bytes).Nodup
  | .s => decide (lengthField bytes = 31)

/-- The acceptance test: the first check that fails, none for a telegram that passes (R164).
`bits` is the number of bits received and `bytes` the bytes kept. -/
def acceptance (k : Link) (bits : Nat) (bytes : List Byte) : Option CheckFail :=
  let len := lengthField bytes
  if bits % 8 ≠ 0 then some .framing
  else if bits / 8 < 2 ∨ bits / 8 < len ∨ len < minLength k then some .length
  else if byteAt bytes 0 ≠ commandType k then some .type
  else if crc (crcSeed k) (bytes.take (len - 2)) ≠ wordAt bytes (len - 2) then some .crc
  else if !contentOk k bytes then some .content
  else none

/-- Entry i of a drive telegram (R175); the slot number is 0..7 once CONTENT has passed. -/
def readEntry (bytes : List Byte) (i : Nat) : Entry :=
  let b := 12 + 10 * i
  { slot := ⟨(byteAt bytes b).toNat % 8, by omega⟩
    cur := (byteAt bytes (b + 1)).getLsbD 0
    ang := (byteAt bytes (b + 1)).getLsbD 1
    idStar := (wordAt bytes (b + 2)).toInt
    iqStar := (wordAt bytes (b + 4)).toInt
    theta := wordAt bytes (b + 6)
    omega := (wordAt bytes (b + 8)).toInt }

/-- A drive command telegram (R175). -/
def readTelegram (bytes : List Byte) : Telegram :=
  { seq := byteAt bytes 2
    request :=
      { kind := byteAt bytes 4
        tag := byteAt bytes 5
        target := byteAt bytes 6
        spare := byteAt bytes 7
        arg1 := wordAt bytes 8
        arg2 := wordAt bytes 10 }
    entries := (List.range (byteAt bytes 3).toNat).map (readEntry bytes) }

/-- The permission and stored limit that a safety telegram carries for a slot (R135, R175). -/
def readPermission (bytes : List Byte) (s : SlotId) : Permission × Nat :=
  match Permission.ofCode (byteAt bytes (5 + 3 * s.val)).toNat with
  | .limit => (.limit, (wordAt bytes (6 + 3 * s.val)).toInt.toNat)
  | p => (p, 0)

/-- The alive count of a safety telegram (R175). -/
def readAlive (bytes : List Byte) : Byte := byteAt bytes 2

/-- The expected signature of a safety telegram (R175). -/
def readSignature (bytes : List Byte) : Word := wordAt bytes 3

/-! ### The wires of a link (R163) -/

/-- Outgoing bit `pos`, most significant bit first; zeros after the last byte. -/
def txBit (bytes : List Byte) (pos : Nat) : Bool := (byteAt bytes (pos / 8)).getLsbD (7 - pos % 8)

/-- A bit is stored: packed most significant bit first, the first 255 bytes kept, later bits counted
only (R163). -/
def Port.bitIn (p : Port) (bit : Bool) : Port :=
  let c := (p.cur <<< 1) ||| (BitVec.ofBool bit).setWidth 8
  if (p.bitCount + 1) % 8 = 0 then
    { p with
      bitCount := p.bitCount + 1
      cur := 0#8
      bytes := if p.bytes.length < Config.rxBytes then p.bytes ++ [c] else p.bytes }
  else { p with bitCount := p.bitCount + 1, cur := c }

/-- Select has gone low: SHIFTING, with the snapshot as outgoing bytes and bit 0 on the output
(R163). -/
def Port.select (p : Port) : Port :=
  let tx := p.snapshot.getD []
  { p with selLow := true, rx := .shifting, bitCount := 0, bytes := [], cur := 0#8, txBytes := tx,
           txPos := 0, sdo := txBit tx 0 }

/-- Select has gone high: IDLE, with the output low (R163). -/
def Port.deselect (p : Port) : Port := { p with selLow := false, rx := .idle, sdo := false }

/-- The transfer in progress is dropped and the link waits for select to go high (R173). -/
def Port.dropTransfer (p : Port) : Port :=
  { p with rx := .waitDeselect, bitCount := 0, bytes := [], cur := 0#8, txBytes := [], txPos := 0,
           sdo := false, resetCount := 0 }

/-- The reset count at a fast sample instant, with the master's data line at `sdi` (R173). -/
def Port.resetStep (p : Port) (sdi : Bool) : Port :=
  { p with
    resetCount :=
      if p.selLow = true ∧ sdi = true ∧ p.clockSeen = false ∧ p.rx ≠ .waitDeselect then
        p.resetCount + 1
      else 0
    clockSeen := false }

/-! ### Result codes and request kinds (R169, section 9.7) -/

/-- The result codes of section 9.7. -/
inductive ResultCode where
  | done | clamped | inProgress | owned | notOwner | wrongState | wrongMode | notConfigured
  | noPermission | noDc | partner | overBudget | badId | badValue | slotsInUse | mapInvalid
  | faultActive | bothSwitches | storeFailed | unknownKind
  deriving DecidableEq, Repr

/-- Their numbers. -/
def ResultCode.code : ResultCode → Nat
  | .done => 1
  | .clamped => 2
  | .inProgress => 3
  | .owned => 4
  | .notOwner => 5
  | .wrongState => 6
  | .wrongMode => 7
  | .notConfigured => 8
  | .noPermission => 9
  | .noDc => 10
  | .partner => 11
  | .overBudget => 12
  | .badId => 13
  | .badValue => 14
  | .slotsInUse => 15
  | .mapInvalid => 16
  | .faultActive => 17
  | .bothSwitches => 18
  | .storeFailed => 19
  | .unknownKind => 20

/-- An answer: result code, value1 and value2 (section 1.3). -/
structure Answer where
  code : ResultCode
  value1 : Word
  value2 : Word
  deriving DecidableEq, Repr

/-- An answer with both values given as numbers. -/
def answer (c : ResultCode) (v1 v2 : Int) : Answer := ⟨c, toWord v1, toWord v2⟩

/-- The request kinds of section 9.7. -/
inductive Kind where
  | claim | release | enable | disable | clear | reserve | readFaults | readGlobal | readParam
  | writeParam | enterSetup | leaveSetup | store | forceLeg | unknown
  deriving DecidableEq, Repr

/-- The kind a code names; codes 15 to 255 name none, and code 0 never stands in a queue (R168,
R169). -/
def Kind.ofCode (b : Byte) : Kind :=
  match b.toNat with
  | 1 => .claim
  | 2 => .release
  | 3 => .enable
  | 4 => .disable
  | 5 => .clear
  | 6 => .reserve
  | 7 => .readFaults
  | 8 => .readGlobal
  | 9 => .readParam
  | 10 => .writeParam
  | 11 => .enterSetup
  | 12 => .leaveSetup
  | 13 => .store
  | 14 => .forceLeg
  | _ => .unknown

/-- The response field for an answered request (R169). -/
def responseOf (r : Request) (a : Answer) : Response :=
  { kind := r.kind
    tag := r.tag
    code := BitVec.ofNat 8 a.code.code
    target := r.target
    value1 := a.value1
    value2 := a.value2 }

end Sys2Proof.Machine
end

