-- ==== Sys2Proof/Machine/SlotRequests.lean ====
section
/-! DEFINITION. The requests that act on slots, reservations and the sticky sets: CLAIM, RELEASE,
ENABLE, DISABLE, CLEAR (R5 to R10), RESERVE (R101, R102), READ_FAULTS and READ_GLOBAL (R155, R159),
and the serving of a request (R169). Each takes the requesting link, the request and the state, and
gives the state after it with the answer. -/

namespace Sys2Proof.Machine

/-- The checks of R5, in order: target, mode, owner (when `needOwner`), state. -/
def slotCheck (needOwner : Bool) (taken : SlotState → Bool) (d : DriveLink) (r : Request)
    (s : State) : Except Answer SlotId :=
  if h : r.target.toNat < 8 then
    let i : SlotId := ⟨r.target.toNat, h⟩
    if s.mode ≠ .operate then .error (answer .wrongMode 0 0)
    else if needOwner = true ∧ (s.slot i).owner ≠ some d then
      .error (answer .notOwner (ownerCode (s.slot i).owner) 0)
    else if taken (s.slot i).state = false then .error (answer .wrongState (s.slot i).state.code 0)
    else .ok i
  else .error (answer .badValue 0 0)

/-- The state code of a slot, as an answer's value. -/
def State.codeOf (s : State) (i : SlotId) : Int := (s.slot i).state.code

/-- value2 of ENABLE and DISABLE: the partner's state code, 0 for a slot without a partner (R5). -/
def State.partnerCodeOf (s : State) (i : SlotId) : Int :=
  match (s.slot i).partner with
  | none => 0
  | some p => s.codeOf p

/-- A slot and its partner, if it has one. -/
def State.members (s : State) (i : SlotId) : List SlotId := i :: (s.slot i).partner.toList

/-- CLAIM (R6). -/
def doClaim (d : DriveLink) (r : Request) (s : State) : State × Answer :=
  match slotCheck false (fun _ => true) d r s with
  | .error a => (s, a)
  | .ok i =>
    let x := s.slot i
    if x.seats.isEmpty then (s, answer .notConfigured 0 0)
    else
      match x.owner with
      | some e => if e = d then (s, answer .done (s.codeOf i) 0) else (s, answer .owned (ownerCode (some e)) 0)
      | none => (s.setSlot i { x with state := .claimed, owner := some d }, answer .done 1 0)

/-- A slot record released to PARKED (R7). -/
def Slot.released (x : Slot) : Slot :=
  { x with
    state := .parked, owner := none
    resv := 0, kScale := 32768, demand := 0
    idW := 0, iqW := 0, theta := 0#16, omega := 0, anglePresent := false
    staged := Vector.replicate 7 none }

/-- RELEASE (R7). -/
def doRelease (d : DriveLink) (r : Request) (s : State) : State × Answer :=
  match slotCheck true (fun st => st = .claimed || st = .offHeld) d r s with
  | .error a => (s, a)
  | .ok i => (s.setSlot i (s.slot i).released, answer .done 0 0)

/-- A slot record enabled toward RUN, its calibration started (R8, R81). -/
def Slot.enabled (x : Slot) : Slot :=
  { x with
    state := .calibrating, intD := 0, intQ := 0, kScale := 32768
    cal := some ⟨0, x.seats.map fun _ => 0⟩ }

/-- ENABLE (R8). -/
def doEnable (d : DriveLink) (r : Request) (s : State) : State × Answer :=
  match slotCheck true (fun st => st = .claimed) d r s with
  | .error a => (s, a)
  | .ok i =>
    let x := s.slot i
    if x.perm.permits = false ∨ s.safety.toffHigh = false then
      (s, answer .noPermission x.perm.code (if s.safety.toffHigh then 0 else 1))
    else if s.dc.uv then (s, answer .noDc s.dc.vdc 0)
    else
      match x.partner with
      | none => (s.setSlot i x.enabled, answer .done 2 0)
      | some p =>
        if (s.slot p).state ≠ .claimed ∨ (s.slot p).owner ≠ some d then
          (s, answer .partner p.val (s.codeOf p))
        else
          let t := s.setSlot i x.enabled
          (t.setSlot p (t.slot p).enabled, answer .done 2 2)

/-- DISABLE moves one slot (R9); in the states that are not active nothing moves. -/
def State.disableSlot (s : State) (i : SlotId) : State :=
  match (s.slot i).state with
  | .calibrating => s.haltSlot i .claimed
  | .run => s.haltSlot i .claimed
  | .stopping => s.haltSlot i .offHeld
  | .parked | .claimed | .offHeld | .fault => s

/-- DISABLE (R9). -/
def doDisable (d : DriveLink) (r : Request) (s : State) : State × Answer :=
  match slotCheck true SlotState.isActive d r s with
  | .error a => (s, a)
  | .ok i =>
    let t := (s.members i).foldl State.disableSlot s
    (t, answer .done (t.codeOf i) (t.partnerCodeOf i))

/-- CLEAR (R10). -/
def doClear (d : DriveLink) (r : Request) (s : State) : State × Answer :=
  match slotCheck true (fun st => st = .fault) d r s with
  | .error a => (s, a)
  | .ok i =>
    let t := s.removeGone i
    if (t.slot i).causes = 0#16 then
      (t.setSlot i { t.slot i with state := .claimed, firstFault := none }, answer .done 1 0)
    else (t, ⟨.faultActive, (t.slot i).causes, 0#16⟩)

/-- The sum of the reservations of every slot but one (R101). -/
def State.otherResv (s : State) (i : SlotId) : Nat :=
  (allSlots.map fun j => if j = i then 0 else (s.slot j).resv).sum

/-- RESERVE (R101, R102). -/
def doReserve (d : DriveLink) (r : Request) (s : State) : State × Answer :=
  if h : r.target.toNat < 8 then
    let i : SlotId := ⟨r.target.toNat, h⟩
    let x := s.slot i
    let others : Int := s.otherResv i
    let amount : Int := r.arg1.toNat
    if s.mode ≠ .operate then (s, answer .wrongMode 0 0)
    else if x.owner ≠ some d then (s, answer .notOwner (ownerCode x.owner) 0)
    else if r.arg1.toNat > 32767 then (s, answer .badValue 0 2)
    else if others + amount > s.image.iIn then (s, answer .overBudget (s.image.iIn - others) x.resv)
    else
      (s.setSlot i { x with resv := r.arg1.toNat }, answer .done amount (s.image.iIn - others - amount))
  else (s, answer .badValue 0 1)

/-- value2 of READ_FAULTS with arg1 = 0: 256 × cause code + leg number, 255 for no leg, 0xFFFF when
the record is none (R155). -/
def faultWord : Option FirstFault → Word
  | none => 0xFFFF#16
  | some f =>
    BitVec.ofNat 16 (256 * f.cause.code + (match f.leg with | none => 255 | some l => l.val))

/-- READ_FAULTS (R155). -/
def doReadFaults (d : DriveLink) (r : Request) (s : State) : State × Answer :=
  if h : r.target.toNat < 8 then
    let i : SlotId := ⟨r.target.toNat, h⟩
    let x := s.slot i
    if r.arg1 = 0#16 then
      (if x.owner = some d then s.removeGone i else s, ⟨.done, x.causes, faultWord x.firstFault⟩)
    else if r.arg1 = 1#16 then
      (s, ⟨.done, x.causes, match x.firstFault with | none => 0#16 | some f => f.cycle⟩)
    else (s, answer .badValue 0 2)
  else (s, answer .badValue 0 1)

/-- READ_GLOBAL (R159). -/
def doReadGlobal (_d : DriveLink) (_r : Request) (s : State) : State × Answer :=
  let left := s.globalSet &&& ~~~s.goneFlags
  ({ s with globalSet := left }, ⟨.done, s.globalSet, left⟩)

/-! ### Serving (R169, R170) -/

/-- Requests are served in SETUP and OPERATE, and a STORE in flight, or one whose result no snapshot
has shown yet, holds the queue (R169, R170). -/
def State.canServe (s : State) (d : DriveLink) : Bool :=
  (s.mode == .setup || s.mode == .operate) && (s.drive d).hold == .free && !(s.drive d).queue.isEmpty

/-- The link can serve, and the request at the head of its queue is of this kind. -/
def State.headIs (s : State) (d : DriveLink) (k : Kind) : Bool :=
  s.canServe d && (s.drive d).queue.head?.any fun r => Kind.ofCode r.kind == k

/-- A request leaves the queue, is tested and carried out, and its result goes into the response
field (R169). -/
def State.serveWith (s : State) (d : DriveLink)
    (f : DriveLink → Request → State → State × Answer) : State :=
  match (s.drive d).queue with
  | [] => s
  | r :: rest =>
    let out := f d r (s.setDrive d { s.drive d with queue := rest })
    out.1.setDrive d { out.1.drive d with response := responseOf r out.2 }

/-- A request of an unknown kind goes to no block (R169). -/
def doUnknown (_d : DriveLink) (_r : Request) (s : State) : State × Answer :=
  (s, answer .unknownKind 0 0)

end Sys2Proof.Machine
end

