-- ==== Sys2Proof/Machine/Params.lean ====
section
/-! DEFINITION. The requests of Image and Mode Control and of the Leg Output Unit: READ_PARAM and
WRITE_PARAM (R21, R22, R181), ENTER_SETUP and LEAVE_SETUP (R182), STORE (R183) and FORCE_LEG (R68,
R69); and the programming of a page. -/

namespace Sys2Proof.Machine

/-- What the access test of R21 gives a write. -/
inductive WriteAccess where
  | atOnce
  | staged
  | refused (a : Answer)
  deriving DecidableEq, Repr

/-- The access test of R21, by class, mode, slot state and owner. The cells that the table says do not
arise, slots that are not PARKED in SETUP, are tested as in OPERATE (log 16). -/
def State.writeAccess (s : State) (d : DriveLink) (i : Item) : WriteAccess :=
  match i with
  | .slot n j =>
    if j.val < 7 then
      let x := s.slot n
      if x.state = .parked then
        if s.mode = .setup then .atOnce else .refused (answer .notOwner 0 0)
      else if x.owner ≠ some d then .refused (answer .notOwner (ownerCode x.owner) 0)
      else if x.state = .claimed then .atOnce
      else if x.state.isActive then .staged
      else .refused (answer .wrongState x.state.code 0)
    else if s.mode = .setup then .atOnce
    else .refused (answer .wrongMode 0 0)
  | .global _ => if s.mode = .setup then .atOnce else .refused (answer .wrongMode 0 0)
  | .leg _ => if s.mode = .setup then .atOnce else .refused (answer .wrongMode 0 0)

/-- A slot whose parameter `j` has no value waiting (R22). -/
def Slot.unstage (x : Slot) (j : Fin 16) : Slot :=
  if h : j.val < 7 then { x with staged := x.staged.set j.val none h } else x

/-- A value written into the working image. A leg-map entry also gives the leg its function in force
(R54, R181). A tuning value takes the place of one that waits, which is not applied any more (R22). -/
def State.writeItem (s : State) (i : Item) (v : Word) : State :=
  let t := { s with image := s.image.setItem i v }
  match i with
  | .leg l =>
    t.setLeg l ((s.leg l).takeFunction (s.deadTime l) s.now s.dc.chopper (legFuncOf v))
  | .slot n j => t.setSlot n ((s.slot n).unstage j)
  | .global _ => t

/-- A tuning value staged for a slot; a later one replaces it (R22). -/
def State.stageItem (s : State) (i : Item) (v : Word) : State :=
  match i with
  | .slot n j =>
    if h : j.val < 7 then s.setSlot n { s.slot n with staged := (s.slot n).staged.set j.val (some v) h }
    else s
  | _ => s

/-- WRITE_PARAM (R181). -/
def doWriteParam (d : DriveLink) (r : Request) (s : State) : State × Answer :=
  match ParamId.ofWord r.arg1 with
  | none => (s, answer .badId 0 0)
  | some .signature => (s, answer .badId 0 0)
  | some (.item i) =>
    match s.writeAccess d i with
    | .refused a => (s, a)
    | .atOnce =>
      match i.examine r.arg2 with
      | none => (s, answer .badValue 0 0)
      | some (v, clamped) => (s.writeItem i v, ⟨if clamped then .clamped else .done, v, 0#16⟩)
    | .staged =>
      match i.examine r.arg2 with
      | none => (s, answer .badValue 0 0)
      | some (v, clamped) => (s.stageItem i v, ⟨if clamped then .clamped else .done, v, 0#16⟩)

/-- A parameter's value as READ_PARAM gives it: the waiting value of a staged tuning write, and a
leg-map entry with its unused fields 0 (R22, R53, R181). -/
def State.readItem (s : State) (i : Item) : Word :=
  match i with
  | .slot n j =>
    if h : j.val < 7 then ((s.slot n).staged[j.val]'h).getD (s.image.item i) else s.image.item i
  | .leg _ => legNormal (s.image.item i)
  | .global _ => s.image.item i

/-- READ_PARAM (R181). The identifiers are those of R179: id_w and iq_w, which R132 says READ_PARAM shows, have
none, and no identifier reads them (the model's choice, log 33). -/
def doReadParam (_d : DriveLink) (r : Request) (s : State) : State × Answer :=
  match ParamId.ofWord r.arg1 with
  | none => (s, answer .badId 0 0)
  | some .signature => (s, ⟨.done, s.signature, 0#16⟩)
  | some (.item i) => (s, ⟨.done, s.readItem i, 0#16⟩)

/-- The lowest slot that is not PARKED. -/
def State.firstInUse (s : State) : Option SlotId :=
  allSlots.find? fun i => (s.slot i).state != .parked

/-- ENTER_SETUP (R182). In SETUP value1 is 0 (log 11). -/
def doEnterSetup (_d : DriveLink) (_r : Request) (s : State) : State × Answer :=
  if s.mode = .setup then (s, answer .done 0 0)
  else
    match s.firstInUse with
    | some i => (s, answer .slotsInUse i.val 0)
    | none => (({ s.stopCarriers with mode := .setup }).reformPermissions, answer .done 2 0)

/-- Every FORCED leg is turned off (R70). -/
def State.forcedOff (s : State) : State :=
  s.mapLegs fun _ x => if x.func = .forced then x.turnOff else x

/-- The five steps of a LEAVE_SETUP whose checks pass (R182). -/
def State.toOperate (s : State) : State :=
  let t := ({ s with signature := s.image.signatureOf }).forcedOff.deriveSlots.startCarriers
  ({ t with mode := .operate }).compareSignature.reformPermissions

/-- LEAVE_SETUP (R182). -/
def doLeaveSetup (_d : DriveLink) (_r : Request) (s : State) : State × Answer :=
  if s.mode ≠ .setup then (s, answer .wrongMode 0 0)
  else if s.storeOp.isSome then (s, answer .wrongState 0 0)
  else
    match s.image.validate with
    | some (reason, n) => (s, answer .mapInvalid reason n)
    | none => (s.toOperate, ⟨.done, s.image.signatureOf, 0#16⟩)

/-- Why a STORE is refused when served (R183). -/
def State.storeRefusal (s : State) : Option Answer :=
  if s.mode ≠ .setup then some (answer .wrongMode 0 0)
  else if s.storeOp.isSome then some (answer .wrongState 0 0)
  else none

/-- A STORE served: refused, it is answered at once and leaves the queue; taken, the image is copied
and sealed, the completion mark erased, the result is IN_PROGRESS, and the STORE stays at the head
of its queue, in flight (R170, R183). -/
def State.serveStore (s : State) (d : DriveLink) : State :=
  match (s.drive d).queue with
  | [] => s
  | r :: _ =>
    match s.storeRefusal with
    | some a => s.serveWith d fun _ _ t => (t, a)
    | none =>
      let t := { s with
        storeOp := some ⟨d, s.image.sealed, 0⟩
        nv := { s.nv with mark := false } }
      t.setDrive d { s.drive d with
        response := responseOf r (answer .inProgress 0 0), hold := .inFlight }

/-- The STORE in flight completes: the final result goes into the response field at that instant and
the STORE leaves the queue (R170). -/
def State.storeComplete (s : State) (d : DriveLink) (a : Answer) : State :=
  let x := s.drive d
  let t := { s with storeOp := none }
  match x.queue with
  | [] => t.setDrive d { x with hold := .reporting }
  | r :: rest => t.setDrive d { x with queue := rest, response := responseOf r a, hold := .reporting }

/-- The programming of one page ends, and reading back gives `readBack`, which the page then holds (R183,
log 10). -/
def State.pageDone (s : State) (op : StoreOp) (readBack : Page) : State :=
  let t := { s with nv := { s.nv with pages := s.nv.pages.set op.page readBack } }
  if readBack = op.copy.page op.page then
    if h : op.page.val + 1 < 8 then
      { t with storeOp := some { op with page := ⟨op.page.val + 1, h⟩ } }
    else
      ({ t with nv := { t.nv with mark := true }, imageBad := false }).storeComplete op.link
        ⟨.done, op.copy[255], 0#16⟩
  else t.storeComplete op.link (answer .storeFailed op.page.val 0)

/-- FORCE_LEG (R68, R69). -/
def doForceLeg (_d : DriveLink) (r : Request) (s : State) : State × Answer :=
  if h : r.target.toNat < 24 then
    let l : LegId := ⟨r.target.toNat, h⟩
    let x := s.leg l
    let high := r.arg1 != 0#16
    let low := r.arg2 != 0#16
    if s.mode ≠ .setup then (s, answer .wrongMode x.drive.code 0)
    else if x.func ≠ .forced then (s, answer .badValue x.func.code 2)
    else if high && low then
      ((s.setLeg l x.turnOff).setFlag .crossRequest, answer .bothSwitches 0 0)
    else if (high || low) && !s.safety.toffHigh then (s, answer .noPermission x.drive.code 1)
    else
      let dest : Drive := if high then .high else if low then .low else .off
      (s.setLeg l (x.drivenTo (s.deadTime l) s.now dest), answer .done dest.code 0)
  else (s, answer .badValue 0 1)

end Sys2Proof.Machine
end

