-- ==== Sys2Proof/Machine/Links.lean ====
section
/-! DEFINITION. The links: what an accepted or refused telegram does (R134, R139, R166 to R168), the
response snapshots (R149, R171, R172, R176), and the link reset (R173). -/

namespace Sys2Proof.Machine

/-! ### Drive telegrams -/

/-- An error mark set (R166, R171). -/
def ErrMarks.set (m : ErrMarks) : CheckFail → ErrMarks
  | .framing => { m with framing := true }
  | .length => { m with length := true }
  | .type => { m with type := true }
  | .crc => { m with crc := true }
  | .content => { m with content := true }

/-- An accepted drive telegram: its request joins the queue or is dropped with OVERRUN, and the
telegram goes into the store, not taken (R167, R168). -/
def DriveRec.accept (x : DriveRec) (t : Telegram) : DriveRec :=
  let y := { x with store := some ⟨t, false⟩ }
  if t.request.kind = 0#8 then y
  else if x.queue.length < Config.queueDepth then { y with queue := x.queue ++ [t.request] }
  else { y with errs := { x.errs with overrun := true } }

/-- The source of a link's global flag becomes present, and the flag is set (R166). -/
def State.linkFailed (s : State) (k : Link) : State :=
  (s.setPort k { s.port k with failed := true }).setFlag (linkFlag k)

/-- The source of a link's global flag is gone (R166). -/
def State.linkPassed (s : State) (k : Link) : State :=
  s.setPort k { s.port k with failed := false }

/-- A received drive telegram is tested and takes effect (R164, R166). -/
def State.driveTelegram (s : State) (d : DriveLink) (bits : Nat) (bytes : List Byte) : State :=
  match acceptance d.toLink bits bytes with
  | some e =>
    (s.linkFailed d.toLink).setDrive d { s.drive d with errs := (s.drive d).errs.set e }
  | none => (s.linkPassed d.toLink).setDrive d ((s.drive d).accept (readTelegram bytes))

/-! ### Safety telegrams -/

/-- Step 1 of R139: permissions, limits, signature and alive count are stored, and the freshness
counter is set to 0. -/
def State.storeFresh (s : State) (bytes : List Byte) : State :=
  let t := s.mapSlots fun i x =>
    { x with storedPerm := (readPermission bytes i).1, storedLimit := (readPermission bytes i).2 }
  { t with safety := { t.safety with
      expectedSig := readSignature bytes
      lastAlive := some (readAlive bytes)
      freshSeen := true
      freshness := 0 } }

/-- Step 2 of R139; during LOADING the comparison is not made (R136). -/
def State.compareUnlessLoading (s : State) : State :=
  if s.mode = .loading then s else s.compareSignature

/-- A fresh telegram is applied in the five steps of R139. -/
def State.applyFresh (s : State) (bytes : List Byte) : State :=
  (s.storeFresh bytes).compareUnlessLoading.reformPermissions.exitTest

/-- An accepted safety telegram is fresh or a repeat (R134). -/
def State.acceptSafety (s : State) (bytes : List Byte) : State :=
  if s.safety.lastAlive = some (readAlive bytes) then
    { s with safety := { s.safety with repeatMark := true } }
  else s.applyFresh bytes

/-- A received safety telegram is tested and takes effect (R164, R166). -/
def State.safetyReceived (s : State) (bits : Nat) (bytes : List Byte) : State :=
  match acceptance .s bits bytes with
  | some e =>
    let t := s.linkFailed .s
    { t with safety := { t.safety with errCode := e.code } }
  | none => (s.linkPassed .s).acceptSafety bytes

/-! ### Link reset -/

/-- A link reset (R173, R150). -/
def State.linkResetNow (s : State) (k : Link) : State :=
  let t := s.setPort k (s.port k).dropTransfer
  let clearDrive : DriveLink → State := fun d =>
    let x := t.drive d
    t.setDrive d { x with
      store := none
      queue := if x.hold = .inFlight then x.queue.take 1 else []
      response := Response.zero
      errs := ErrMarks.clear }
  match k with
  | .a => clearDrive .a
  | .b => clearDrive .b
  | .s => { t with safety := { t.safety with errCode := 0, repeatMark := false } }

/-- The reset count of a link stands at 200 (R173). -/
def State.linkResetDue (s : State) (k : Link) : Bool :=
  (s.port k).resetCount == Config.linkResetCount

/-- The link reset is made when its count stands at 200. -/
def State.linkResetWork (s : State) (k : Link) : State :=
  if s.linkResetDue k then s.linkResetNow k else s

/-! ### Response snapshots -/

/-- A flag as a bit of a byte. -/
def bitIf (b : Bool) (n : Nat) : Nat := if b then 2 ^ n else 0

/-- The slot flags of a record (R23, R52, R111, R125, R126, R143). -/
def State.slotFlags (s : State) (d : DriveLink) (i : SlotId) : Byte :=
  let x := s.slot i
  BitVec.ofNat 8 (bitIf x.reported.vsat 0 + bitIf (decide (s.appliedScale i < 32768)) 1 +
    bitIf x.reported.regenLimited 2 + bitIf x.reported.tempLimited 3 +
    bitIf ((s.drive d).curIgnored.contains i) 4 + bitIf ((s.drive d).entryIgnored.contains i) 5 +
    bitIf (x.state == .stopping) 6)

/-- A slot record of a drive response (R23, R176). -/
def State.slotRecord (s : State) (d : DriveLink) (i : SlotId) : List Byte :=
  let x := s.slot i
  [BitVec.ofNat 8 i.val, BitVec.ofNat 8 x.state.code] ++ wordBytes (toWord x.avgD) ++
    wordBytes (toWord x.avgQ) ++ wordBytes (BitVec.ofNat 16 (s.appliedScale i)) ++
    wordBytes x.snapCauses ++ [BitVec.ofNat 8 x.perm.code, s.slotFlags d i]

/-- The slots a link owns, in ascending order (R23). A slot that its link's own request claimed or released
at this cycle event is listed as it stands after the request (the model's choice, log 28). -/
def State.owned (s : State) (d : DriveLink) : List SlotId :=
  allSlots.filter fun i => (s.slot i).owner == some d

/-- The link flags of a drive response (R171, R176). -/
def State.linkFlags (s : State) (d : DriveLink) : Byte :=
  let e := (s.drive d).errs
  BitVec.ofNat 8 (bitIf e.framing 0 + bitIf e.length 1 + bitIf e.type 2 + bitIf e.crc 3 +
    bitIf e.content 4 + bitIf e.overrun 5 + bitIf (s.drive d).holdMark 6 + bitIf s.dc.chopper 7)

/-- The response field's bytes (R176). -/
def Response.bytes (r : Response) : List Byte :=
  [r.kind, r.tag, r.code, r.target] ++ wordBytes r.value1 ++ wordBytes r.value2

/-- The drive response telegram (R171, R176). -/
def State.driveResponse (s : State) (d : DriveLink) : List Byte :=
  let m := (s.owned d).length
  closeWithCrc d.toLink
    ([0x32#8, BitVec.ofNat 8 (22 + 12 * m), (s.drive d).seqEcho, BitVec.ofNat 8 s.mode.code] ++
      wordBytes s.cyc.number ++ wordBytes (BitVec.ofNat 16 s.dc.vdc) ++ wordBytes s.globalSet ++
      [s.linkFlags d, BitVec.ofNat 8 m] ++ (s.drive d).response.bytes ++
      (s.owned d).flatMap (s.slotRecord d))

/-- A drive link builds its snapshot, which takes the error marks; a snapshot that shows the final
result of a STORE ends the hold on the queue (R170, R171). -/
def State.buildSnapshot (s : State) (d : DriveLink) : State :=
  let x := s.drive d
  (s.setPort d.toLink { s.port d.toLink with snapshot := some (s.driveResponse d) }).setDrive d
    { x with errs := ErrMarks.clear, hold := if x.hold = .reporting then .free else x.hold }

/-- The four bytes of a slot in the safety response (R149, R176). Bits 2 to 6 of the permission byte, of which
the rules say nothing, are sent as 0 (the model's choice, log 36). -/
def State.safetySlot (s : State) (i : SlotId) : List Byte :=
  let x := s.slot i
  [BitVec.ofNat 8 x.state.code, BitVec.ofNat 8 (x.perm.code + bitIf (s.legsOff i) 7)] ++
    wordBytes (BitVec.ofNat 16 x.stopCount)

/-- The safety flags (R149, R172, R176). -/
def State.safetyFlags (s : State) : Byte :=
  BitVec.ofNat 8 (bitIf s.safety.toffHigh 0 + bitIf s.safetyLost 1 + bitIf s.safety.mismatch 2 +
    bitIf s.safety.repeatMark 3 + 16 * s.safety.errCode)

/-- The safety response telegram (R149, R172, R176). -/
def State.safetyResponse (s : State) : List Byte :=
  closeWithCrc .s
    ([0x52#8, 40#8, s.safety.lastAlive.getD 0#8] ++ wordBytes s.signature ++ [s.safetyFlags] ++
      allSlots.flatMap s.safetySlot)

/-- The Safety Link builds its snapshot, which takes the error code and the REPEAT mark (R172). -/
def State.buildSafetySnapshot (s : State) : State :=
  let t := s.setPort .s { s.port .s with snapshot := some s.safetyResponse }
  { t with safety := { t.safety with errCode := 0, repeatMark := false } }

end Sys2Proof.Machine
end

