-- ==== Sys2Proof/Machine/Cycle.lean ====
section
/-! DEFINITION. The works of a cycle event: numbering and internal generation (R118 to R120), intake and
miss counters (R123 to R129), staged tuning values (R22), the freshness counter and its timeout (R137,
R140), the stopping countdown (R14, R142), and the copies of the cause sets (R156). -/

namespace Sys2Proof.Machine

/-! ### The cycle event itself -/

/-- A cycle event is made at this instant: number, reference instant, first event made (R118). -/
def State.numberCycle (s : State) : State :=
  { s with cyc := { s.cyc with number := s.cyc.number + 1, refInstant := s.now, firstMade := true } }

/-- Internal generation becomes ACTIVE, and CYC_LOST is set (R119), or it ends (R120). Either is a work of
its cycle event, before or after the requests served and the snapshots built there (R158, R162). -/
def State.setGeneration (s : State) (active : Bool) : State :=
  ({ s with cyc := { s.cyc with genActive := active } }).setFlagIf active .cycLost

/-- Whether an accepted rising edge at this instant is a cycle event: the first since reset, or
T_CYC/2 or more after the reference instant (R118). -/
def State.edgeCounts (s : State) : Bool :=
  !s.cyc.firstMade || decide (Config.earlyFactor * s.image.tCyc ≤ s.now - s.cyc.refInstant)

/-! ### Setpoint Intake -/

/-- An entry applied to an owned slot; the CUR fields of a follower are ignored (R124, R126). -/
def Slot.applyEntry (x : Slot) (follower : Bool) (e : Entry) : Slot :=
  let y := if e.cur = true ∧ follower = false then { x with idW := e.idStar, iqW := e.iqStar } else x
  if e.ang then { y with theta := e.theta, omega := e.omega, anglePresent := true } else y

/-- The entry applied when its slot is owned by the telegram's link (R124, R125). -/
def State.applyEntry (s : State) (d : DriveLink) (e : Entry) : State :=
  if (s.slot e.slot).owner = some d then
    s.setSlot e.slot ((s.slot e.slot).applyEntry (s.isFollower e.slot) e)
  else s

/-- The slots of ignored entries (R125). -/
def State.ignoredEntries (s : State) (d : DriveLink) (es : List Entry) : List SlotId :=
  allSlots.filter fun i => es.any fun e => e.slot = i && (s.slot i).owner != some d

/-- The owned followers for which an entry carries CUR (R126). -/
def State.ignoredCurs (s : State) (d : DriveLink) (es : List Entry) : List SlotId :=
  allSlots.filter fun i =>
    es.any fun e => e.slot = i && e.cur && (s.slot i).owner == some d && s.isFollower i

/-- Intake of one link: a telegram not yet taken is taken whole, otherwise the cycle event is a miss
(R123 to R128). -/
def State.intake (s : State) (d : DriveLink) : State :=
  let x := s.drive d
  let miss := s.setDrive d { x with
    miss := min (x.miss + 1) s.image.holdMax, holdMark := true, entryIgnored := [], curIgnored := [] }
  match x.store with
  | none => miss
  | some h =>
    if h.taken then miss
    else
      let es := h.telegram.entries
      let t := es.foldl (fun s e => s.applyEntry d e) s
      t.setDrive d { x with
        store := some ⟨h.telegram, true⟩, seqEcho := h.telegram.seq, miss := 0, holdMark := false
        entryIgnored := s.ignoredEntries d es, curIgnored := s.ignoredCurs d es }

/-- The slots a link owns that SETPOINT_STALE notices go to (R129). -/
def State.staleSlots (s : State) (d : DriveLink) (order : List SlotId) : List SlotId :=
  (slotsInOrder order).filter fun i => (s.slot i).owner == some d && (s.slot i).state.isActive

/-- The miss counter of a link stands at HOLD_MAX, and it owns an active slot (R129). -/
def State.staleDue (s : State) (d : DriveLink) : Bool :=
  (s.drive d).miss == s.image.holdMax && !(s.staleSlots d []).isEmpty

/-- The SETPOINT_STALE notices of a link are taken, in the order given (R129). -/
def State.staleNotices (s : State) (d : DriveLink) (order : List SlotId) : State :=
  if s.staleDue d then s.takeNotices (s.staleSlots d order) .setpointStale else s

/-! ### Staged tuning values -/

/-- One waiting value written into an image (R22). -/
def stagedInto (i : SlotId) (staged : Vector (Option Word) 7) (img : Image) (j : Fin 7) : Image :=
  match staged[j] with
  | some v => img.setItem (.slot i ⟨j.val, by omega⟩) v
  | none => img

/-- A slot has a value waiting (R22). -/
def Slot.hasStaged (x : Slot) : Bool := x.staged.toList.any Option.isSome

/-- The waiting values of a slot are written into the working image and become absent (R22). -/
def State.applyStaged (s : State) (i : SlotId) : State :=
  let x := s.slot i
  ({ s with image := (List.finRange 7).foldl (stagedInto i x.staged) s.image }).setSlot i
    { x with staged := Vector.replicate 7 none }

/-! ### Freshness, stopping, copies -/

/-- The freshness counter stepped toward SAFE_TMO (R137). -/
def State.steppedFreshness (s : State) : State :=
  { s with safety := { s.safety with freshness := min (s.safety.freshness + 1) s.image.safeTmo } }

/-- At a counter standing at SAFE_TMO, SAFETY_LOST is set and the effective permissions are formed
afresh (R137, R140). -/
def State.drawTimeout (s : State) : State :=
  if s.safetyLost then (s.setFlag .safetyLost).reformPermissions else s

/-- The freshness counter steps, and at SAFE_TMO its consequences are drawn in the same work, so that a
snapshot or a telegram comes before both or after both (R137, R140, R147). -/
def State.stepFreshness (s : State) : State := s.steppedFreshness.drawTimeout

/-- The step leaves the counter at SAFE_TMO with consequences still to be drawn: the flag is not in the
global set, or an effective permission would change (R137, R140, log 21). -/
def State.safetyTimeoutDue (s : State) : Bool :=
  let t := s.steppedFreshness
  t.safetyLost && (t.globalSet &&& Flag.safetyLost.bit == 0#16 ||
    allSlots.any fun i => decide ((t.formPermission i).1 ≠ (t.slot i).perm))

/-- The countdown of one slot (R142). -/
def Slot.countDown (x : Slot) : Slot :=
  if x.state = .stopping ∧ x.stopLoaded = false then { x with stopCount := x.stopCount - 1 } else x

/-- The stop counters step (R142). -/
def State.countdown (s : State) : State := s.mapSlots fun _ x => x.countDown

/-- A slot in STOPPING whose counter stands at 0 (R14). -/
def State.stopExpired (s : State) (i : SlotId) : Bool :=
  (s.slot i).state == .stopping && (s.slot i).stopCount == 0

/-- A stop counter has reached 0: the slot, and its partner with it, goes to OFF_HELD (R14, R19). -/
def State.stopExpiryWork (s : State) (i : SlotId) : State :=
  if s.stopExpired i then
    let t := s.haltSlot i .offHeld
    match (s.slot i).partner with
    | none => t
    | some p => if t.stopExpired p then t.haltSlot p .offHeld else t
  else s

/-- A slot's cause set is copied into its snapshot set (R156). -/
def State.faultCopy (s : State) (i : SlotId) : State :=
  s.setSlot i { s.slot i with snapCauses := (s.slot i).causes }

/-! ### Serving the head of a queue -/

def State.serveClaim (s : State) (d : DriveLink) : State := s.serveWith d doClaim
def State.serveRelease (s : State) (d : DriveLink) : State := s.serveWith d doRelease
def State.serveEnable (s : State) (d : DriveLink) : State := s.serveWith d doEnable
def State.serveDisable (s : State) (d : DriveLink) : State := s.serveWith d doDisable
def State.serveClear (s : State) (d : DriveLink) : State := s.serveWith d doClear
def State.serveReserve (s : State) (d : DriveLink) : State := s.serveWith d doReserve
def State.serveReadFaults (s : State) (d : DriveLink) : State := s.serveWith d doReadFaults
def State.serveReadGlobal (s : State) (d : DriveLink) : State := s.serveWith d doReadGlobal
def State.serveReadParam (s : State) (d : DriveLink) : State := s.serveWith d doReadParam
def State.serveWriteParam (s : State) (d : DriveLink) : State := s.serveWith d doWriteParam
def State.serveEnterSetup (s : State) (d : DriveLink) : State := s.serveWith d doEnterSetup
def State.serveLeaveSetup (s : State) (d : DriveLink) : State := s.serveWith d doLeaveSetup
def State.serveForceLeg (s : State) (d : DriveLink) : State := s.serveWith d doForceLeg
def State.serveUnknown (s : State) (d : DriveLink) : State := s.serveWith d doUnknown

/-- The head of a link's queue is served, whatever its kind, unless R169 or R170 holds the link back. -/
def State.serveHead (s : State) (d : DriveLink) : State :=
  if s.canServe d then
    match (s.drive d).queue with
    | [] => s
    | r :: _ =>
      match Kind.ofCode r.kind with
      | .claim => s.serveClaim d
      | .release => s.serveRelease d
      | .enable => s.serveEnable d
      | .disable => s.serveDisable d
      | .clear => s.serveClear d
      | .reserve => s.serveReserve d
      | .readFaults => s.serveReadFaults d
      | .readGlobal => s.serveReadGlobal d
      | .readParam => s.serveReadParam d
      | .writeParam => s.serveWriteParam d
      | .enterSetup => s.serveEnterSetup d
      | .leaveSetup => s.serveLeaveSetup d
      | .store => s.serveStore d
      | .forceLeg => s.serveForceLeg d
      | .unknown => s.serveUnknown d
  else s

end Sys2Proof.Machine
end

