-- ==== Sys2Proof/Machine/Loop.lean ====
section
/-! DEFINITION. The current loop: the thirteen stages of chapter 2 for one slot at one period event
(R30 to R50), and the work of a period event on the group's slots (R26, R51, R130, R132). -/

namespace Sys2Proof.Machine

/-- The inputs of one computation (R30). -/
structure LoopIn where
  ia : Int
  ib : Int
  ic : Int
  theta : BitVec 16
  omega : Int
  idW : Int
  iqW : Int
  k : Nat
  kr : Nat
  vdc : Nat
  vUv : Nat
  iMax : Int
  lTemp : Int
  /-- L_perm when the effective permission is LIMIT. -/
  lPerm : Option Int
  kpD : Nat
  kpQ : Nat
  kiD : Nat
  kiQ : Nat
  vlim : Nat
  dtcAmp : Nat
  dtcI : Nat
  intD : Int
  intQ : Int
  hp : Nat
  mp : Nat
  deriving DecidableEq, Repr

/-- What one computation gives: the conditioned setpoints, the measured components, the limited voltage
command with its limit, the compare values, the new integrators, the DC-current sample and the period's
marks. -/
structure LoopOut where
  /-- The conditioned setpoints id and iq (R33 to R35). -/
  id : Int
  iq : Int
  /-- Umax and the voltage command u_d, u_q (R41, R42). -/
  uMax : Int
  uD : Int
  uQ : Int
  iD : Int
  iQ : Int
  cU : Nat
  cV : Nat
  cW : Nat
  intD : Int
  intQ : Int
  j : Int
  vsat : Bool
  tempLimited : Bool
  regenLimited : Bool
  deriving DecidableEq, Repr

/-- The current limit of the period (R33). -/
def currentLimit (iMax lTemp : Int) (lPerm : Option Int) : Int :=
  let l := min iMax lTemp
  match lPerm with
  | none => l
  | some p => min l p

/-- The d setpoint within the limit (R34). -/
def limitD (l idW : Int) : Int := clampSym idW l

/-- The q setpoint within what the d setpoint leaves (R34). -/
def limitQ (l id iqW : Int) : Int := clampSym iqW (isqrtI (l * l - id * id))

/-- The q setpoint scaled by the direction of power flow (R35). -/
def scaleQ (iq omega : Int) (k kr : Nat) : Int :=
  if 0 < iq * omega then truncDiv (iq * k) 32768
  else if iq * omega < 0 then truncDiv (iq * kr) 32768
  else iq

/-- Clarke transform (R37). -/
def clarkeAlpha (ia ib ic : Int) : Int := sat16 (roundDiv ((2 * ia - ib - ic) * 10923) 32768)
def clarkeBeta (ib ic : Int) : Int := sat16 (roundDiv ((ib - ic) * 18919) 32768)

/-- Park transform (R38). -/
def parkD (al be sin cos : Int) : Int := sat16 (roundDiv (al * cos + be * sin) 32768)
def parkQ (al be sin cos : Int) : Int := sat16 (roundDiv (-al * sin + be * cos) 32768)

/-- The proportional term (R39). -/
def propTerm (kp : Nat) (e : Int) : Int := (kp * e + 128) / 256

/-- The largest voltage vector of the period (R41). -/
def uMax (ve vlim : Nat) : Int := (ve : Int) * 18919 / 32768 * vlim / 32768

/-- The new integrator of an axis (R43). -/
def antiWindup (old cand e uPre : Int) (clamped : Bool) (umax : Int) : Int :=
  if clamped = true ∧ e ≠ 0 ∧ 0 < e * uPre then old else clampSym cand (umax * 65536)

/-- The min-max offset (R46). -/
def injection (ua ub uc : Int) : Int := -((max ua (max ub uc) + min ua (min ub uc)) / 2)

/-- The base compare value of a phase voltage (R47). -/
def baseCompare (u : Int) (ve hp : Nat) : Int := (2 * u + ve) * hp / (2 * ve)

/-- Dead-time compensation (R48). -/
def compensate (c i : Int) (amp lim : Nat) : Int :=
  if (lim : Int) ≤ i then c + amp else if i ≤ -(lim : Int) then c - amp else c

/-- The clamp to 0..HP, then pulse dropping (R49). -/
def dropPulse (c : Int) (hp mp : Nat) : Nat :=
  let x := clampI c 0 hp
  if x < mp then 0 else if (hp : Int) - mp < x then hp else x.toNat

/-- The three phase voltages u_a', u_b', u_c' of a voltage command: inverse Park and Clarke, and the
min-max offset (R44 to R46). -/
def phaseVoltages (uD uQ sin cos : Int) : Int × Int × Int :=
  let uAl := roundDiv (uD * cos - uQ * sin) 32768
  let uBe := roundDiv (uD * sin + uQ * cos) 32768
  let ub := (-16384 * uAl + 28378 * uBe + 16384) / 32768
  let uc := (-16384 * uAl - 28378 * uBe + 16384) / 32768
  let u0 := injection uAl ub uc
  (uAl + u0, ub + u0, uc + u0)

/-- The compare value of a phase from its voltage and its current (R47 to R49). -/
def LoopIn.compareOf (x : LoopIn) (u i : Int) : Nat :=
  dropPulse (compensate (baseCompare u (max x.vdc x.vUv) x.hp) i x.dtcAmp x.dtcI) x.hp x.mp

/-- The DC-current sample from the phase voltages (R50). -/
def LoopIn.dcSample (x : LoopIn) (v : Int × Int × Int) : Int :=
  sat16 (truncDiv (v.1 * x.ia + v.2.1 * x.ib + v.2.2 * x.ic) (max x.vdc x.vUv : Nat))

/-- One computation, stage by stage (R33 to R50). -/
def loopCompute (x : LoopIn) : LoopOut :=
  let ve := max x.vdc x.vUv
  -- setpoint conditioning
  let l := currentLimit x.iMax x.lTemp x.lPerm
  let id := limitD l x.idW
  let iq0 := limitQ l id x.iqW
  let iq := scaleQ iq0 x.omega x.k x.kr
  -- forward transforms
  let sin := sinAu x.theta
  let cos := cosAu x.theta
  let al := clarkeAlpha x.ia x.ib x.ic
  let be := clarkeBeta x.ib x.ic
  let iD := parkD al be sin cos
  let iQ := parkQ al be sin cos
  -- errors, PI controller
  let eD := id - iD
  let eQ := iq - iQ
  let candD := x.intD + x.kiD * eD
  let candQ := x.intQ + x.kiQ * eQ
  let preD := propTerm x.kpD eD + candD / 65536
  let preQ := propTerm x.kpQ eQ + candQ / 65536
  -- voltage limit, anti-windup
  let um := uMax ve x.vlim
  let uD := clampSym preD um
  let uq := isqrtI (um * um - uD * uD)
  let uQ := clampSym preQ uq
  let clD := decide (um < |preD|)
  let clQ := decide (uq < |preQ|)
  -- back to the phases
  let v := phaseVoltages uD uQ sin cos
  { id := id
    iq := iq
    uMax := um
    uD := uD
    uQ := uQ
    iD := iD
    iQ := iQ
    cU := x.compareOf v.1 x.ia
    cV := x.compareOf v.2.1 x.ib
    cW := x.compareOf v.2.2 x.ic
    intD := antiWindup x.intD candD eD preD clD um
    intQ := antiWindup x.intQ candQ eQ preQ clQ um
    j := x.dcSample v
    vsat := clD || clQ
    tempLimited := decide (l = x.lTemp ∧ x.lTemp < x.iMax)
    regenLimited := decide (iq0 * x.omega < 0 ∧ x.kr < 32768) }

/-! ### The inputs and results of a slot -/

/-- The combined current of a phase: the Sat16 of the sum of its legs' period samples (R31). -/
def State.phaseCurrent (s : State) (i : SlotId) (ph : Phase) : Int :=
  sat16 (((s.slot i).seats.filter fun t => t.phase = ph).map fun t => (s.leg t.leg).sample).sum

/-- The working setpoint handed to the loop (R20, R132). -/
def State.handedSetpoint (s : State) (i : SlotId) : Int × Int :=
  let x := s.slot i
  match x.partner with
  | none => if x.anglePresent then (x.idW, x.iqW) else (0, 0)
  | some p =>
    if x.anglePresent && (s.slot p).anglePresent then
      ((s.slot (s.leadOf i)).idW, (s.slot (s.leadOf i)).iqW)
    else (0, 0)

/-- The inputs of the computation of a slot of group `g` (R30). -/
def State.loopInputs (s : State) (g : GroupId) (i : SlotId) : LoopIn :=
  let x := s.slot i
  { ia := s.phaseCurrent i .u
    ib := s.phaseCurrent i .v
    ic := s.phaseCurrent i .w
    theta := x.theta
    omega := x.omega
    idW := (s.handedSetpoint i).1
    iqW := (s.handedSetpoint i).2
    k := s.appliedScale i
    kr := s.dc.kr
    vdc := s.dc.vdc
    vUv := s.image.vUv
    iMax := s.image.iMax i
    lTemp := s.lTemp i
    lPerm := if x.perm = .limit then some x.lPerm else none
    kpD := s.image.kpD i
    kpQ := s.image.kpQ i
    kiD := s.image.kiD i
    kiQ := s.image.kiQ i
    vlim := s.image.vlim i
    dtcAmp := s.image.dtcAmp i
    dtcI := s.image.dtcI i
    intD := x.intD
    intQ := x.intQ
    hp := s.image.hp g
    mp := s.image.mp g }

/-- The results stored in the slot record: integrators, accumulators, cycle marks (R43, R51). -/
def Slot.afterLoop (x : Slot) (o : LoopOut) : Slot :=
  { x with
    intD := o.intD
    intQ := o.intQ
    acc := ⟨x.acc.sumJ + o.j, x.acc.sumD + o.iD, x.acc.sumQ + o.iQ, x.acc.n + 1⟩
    marks := ⟨x.marks.vsat || o.vsat, x.marks.tempLimited || o.tempLimited,
      x.marks.regenLimited || o.regenLimited⟩ }

/-- The compare value of a phase. -/
def LoopOut.compare (o : LoopOut) : Phase → Nat
  | .u => o.cU
  | .v => o.cV
  | .w => o.cW

/-- One slot computed: its record, and the shadow of each of its legs (R49, R51). -/
def State.computeSlot (s : State) (g : GroupId) (i : SlotId) : State :=
  let o := loopCompute (s.loopInputs g i)
  let x := s.slot i
  (s.mapLegs fun l y =>
      match x.phaseOf l with
      | some ph => { y with shadow := some (o.compare ph) }
      | none => y).setSlot i (x.afterLoop o)

/-- The slots of a group (R2). -/
def State.slotsOf (s : State) (g : GroupId) : List SlotId :=
  allSlots.filter fun i => (s.slot i).group == some g

/-- The angle of a configured slot advanced by its speed, modulo 65536 (R130). -/
def Slot.advanceAngle (x : Slot) : Slot := { x with theta := x.theta + BitVec.ofInt 16 x.omega }

/-- The Loop Engine computes every slot of the group in RUN or STOPPING, and every configured slot's
angle is handed over and advanced (R26, R130). -/
def State.computeGroup (s : State) (g : GroupId) : State :=
  let t := ((s.slotsOf g).filter fun i => (s.slot i).state.isRunning).foldl
    (fun s i => s.computeSlot g i) s
  t.mapSlots fun _ x => if x.group = some g then x.advanceAngle else x

end Sys2Proof.Machine
end

