-- ==== Sys2Proof/Machine/Sampling.lean ====
section
/-! DEFINITION. The measurement of the part: the bits of a modulator clock edge (R72, R73, R87, R92),
the work of a fast sample event (R76 to R80, R117, R144, R173), of a V_dc sample event (R92 to R98),
of a temperature sample event (R87 to R90), and of a period event (R60, R74, R82, R84 to R86). -/

namespace Sys2Proof.Machine

/-! ### Bits and windows -/

/-- A bit enters a window and the oldest leaves one that was full (R73, R92). -/
def pushBit (window : List Bool) (bit : Bool) : List Bool := (bit :: window).take Config.periodWindow

/-- The run length after a bit (R73). -/
def nextRun (last : Option Bool) (run : Nat) (bit : Bool) : Nat :=
  if last = some bit then min (run + 1) Config.runCap else 1

/-- The sum of a window: a one counts +1, a zero -1, a position not filled 0 (R73). -/
def windowSum (w : List Bool) : Int := (w.map fun b => if b then (1 : Int) else -1).sum

/-- The ones in a window (R92). -/
def onesIn (w : List Bool) : Nat := w.count true

/-- The raw value of a leg (R73). -/
def Leg.raw (x : Leg) : Int := sat16 (32 * windowSum x.window)

/-- The fast raw value of a leg, over the newest 64 bits (R73). -/
def Leg.fastRaw (x : Leg) : Int := sat16 (512 * windowSum (x.window.take Config.fastWindow))

/-- A bit taken into a leg's record (R73). -/
def Leg.takeBit (x : Leg) (bit : Bool) : Leg :=
  { x with
    window := pushBit x.window bit
    runLen := nextRun x.lastBit x.runLen bit
    lastBit := some bit }

/-- A bit taken into a group's temperature record (R87). -/
def Group.takeBit (x : Group) (bit : Bool) : Group :=
  { x with
    ones := if bit then x.ones + 1 else x.ones
    runLen := nextRun x.lastBit x.runLen bit
    lastBit := some bit }

/-- The bits of one rising edge of MCKg: bit n of `ibs` is IBS(6g + n); VBS is taken at MCK0 alone
(R72, R92). -/
def State.takeBits (s : State) (g : GroupId) (ibs : BitVec 6) (tbs vbs : Bool) : State :=
  let t := (s.mapLegs fun l x =>
    if groupOf l = g then x.takeBit (ibs.getLsbD (l.val % 6)) else x).setGroup g
      ((s.group g).takeBit tbs)
  if g = 0 then { t with dc := { t.dc with window := pushBit t.dc.window vbs } } else t

/-! ### The filter of two equal samples (R79, R117, R144) -/

/-- The accepted level after a sample: it takes the level of a sample that equals the last one. -/
def filterLevel (last : Option Bool) (accepted sample : Bool) : Bool :=
  if last = some sample then sample else accepted

/-! ### Fast sample event -/

/-- A leg at a fast sample event: fast value and overcurrent count (R77), driver-ready filter (R79).
`limits` holds IOC and OC_N of the slot whose leg set holds the leg; without one the count stays at
0 (R76). -/
def Leg.fastSample (x : Leg) (limits : Option (Nat × Nat)) (drdy : Bool) : Leg :=
  let v := sat16 (x.fastRaw - x.offset)
  { x with
    fastValue := v
    ocCount := match limits with
      | none => 0
      | some (ioc, ocN) => if ioc < v.natAbs then min (x.ocCount + 1) ocN else 0
    ready := filterLevel x.drdyLast x.ready drdy
    drdyLast := some drdy }

/-- IOC and OC_N for a leg of a slot's leg set (R76, R77). -/
def State.fastLimits (s : State) (l : LegId) : Option (Nat × Nat) :=
  (s.slotOfLeg l).map fun i => (s.image.ioc i, s.image.ocN i)

/-- Every leg's fast sample work (R76). -/
def State.sampleLegs (s : State) (drdy : BitVec 24) : State :=
  s.mapLegs fun l x => x.fastSample (s.fastLimits l) (drdy.getLsbD l.val)

/-- The CYC line's filter (R117). -/
def State.sampleCyc (s : State) (p : FastPins) : State :=
  { s with cyc := { s.cyc with
      level := filterLevel s.cyc.lastSample s.cyc.level p.cyc
      lastSample := some p.cyc } }

/-- The reset counts of the three links (R173). -/
def State.sampleLinks (s : State) (p : FastPins) : State :=
  (((s.setPort .a ((s.port .a).resetStep p.asdi)).setPort .b ((s.port .b).resetStep p.bsdi)).setPort .s
    ((s.port .s).resetStep p.ssdi))

/-- The last TOFF sample; the accepted level changes in the work `toffAccept` (R144). -/
def State.sampleToff (s : State) (p : FastPins) : State :=
  { s with safety := { s.safety with toffLast := some p.toff } }

/-- TOFF accepted LOW: every PHASE and FORCED leg off, every active slot to OFF_HELD (R65, R145);
accepted HIGH: the exit test (R146). With a fresh telegram of STOP at the same instant, a slot in OFF_HELD
that stands under ALLOW or LIMIT passes to CLAIMED when the TOFF level is taken first, as R15 and R146 say,
although a row of R147 says that it stays in OFF_HELD in both orders (the model's choice, log 37). -/
def State.acceptToff (s : State) (high : Bool) : State :=
  let t := { s with safety := { s.safety with toffHigh := high } }
  if high then t.exitTest
  else
    allSlots.foldl State.toffSlot (t.mapLegs fun _ x =>
      match x.func with
      | .phase _ _ _ => x.turnOff
      | .forced => x.turnOff
      | _ => x)

/-- A STREAM notice for a leg, if its stream is stuck (R78). -/
def State.streamNotice (s : State) (l : LegId) : State :=
  if stuck (s.leg l).runLen then
    match s.slotOfLeg l with
    | some i => s.takeNotice i .stream (some l)
    | none => s
  else s

/-- A DRIVER notice for a leg, if its accepted level is NOT_READY (R80). -/
def State.driverNotice (s : State) (l : LegId) : State :=
  if (s.leg l).ready then s
  else
    match s.slotOfLeg l with
    | some i => s.takeNotice i .driver (some l)
    | none => s

/-- An OVERCURRENT notice stands out for a leg: its count stands at OC_N and its slot is active
(R77). -/
def State.overcurrentDue (s : State) (l : LegId) : Bool :=
  (s.slotOfLeg l).any fun i => (s.slot i).state.isActive && (s.leg l).ocCount == s.image.ocN i

/-- The OVERCURRENT notice is taken (R77, R16). -/
def State.overcurrentNotice (s : State) (l : LegId) : State :=
  if s.overcurrentDue l then
    match s.slotOfLeg l with
    | some i => s.takeNotice i .overcurrent (some l)
    | none => s
  else s

/-! ### V_dc sample event -/

/-- The regeneration scale from one sample (R98). -/
def regenScale (vdc vRg vOv : Nat) : Nat :=
  if vOv ≤ vdc then 0
  else if vdc ≤ vRg then 32768
  else 32768 * (vOv - vdc) / (vOv - vRg)

/-- The chopper state from one sample (R97). -/
def chopperNext (was : Bool) (vdc vOn vOff : Nat) : Bool :=
  if vOn ≤ vdc then true else if vdc ≤ vOff then false else was

/-- The DC Link Monitor at a sample event (R92, R94, R96 to R98). -/
def State.sampleDc (s : State) : DcLink :=
  let v := min (32 * onesIn s.dc.window) 32767
  { s.dc with
    vdc := v
    uv := decide (v < s.image.vUv)
    ov := decide (s.image.vOv < v)
    chopper := chopperNext s.dc.chopper v s.image.vChOn s.image.vChOff
    kr := regenScale v s.image.vRg s.image.vOv }

/-- The work of a V_dc sample event: sample, chopper legs, flags, then the notices in the order given
(R67, R92 to R98). -/
def State.vdcEvent (s : State) (order : List SlotId) : State :=
  let d := s.sampleDc
  let t := ({ s with dc := d }).mapLegs fun l x =>
    if x.func = LegFunc.chopper ∧ s.dc.chopper ≠ d.chopper then
      x.followChopper (s.deadTime l) s.now d.chopper
    else x
  let t := (t.setFlagIf d.uv .dcUv).setFlagIf d.ov .dcOv
  let t := if d.uv then t.takeNotices (slotsInOrder order) .dcUndervoltage else t
  if d.ov then t.takeNotices (slotsInOrder order) .dcOvervoltage else t

/-! ### Temperature sample event -/

/-- T from the ones count, or T_TRIP for a stuck stream (R87). -/
def Group.tempOf (x : Group) (tTrip : Int) : Int :=
  if stuck x.runLen then tTrip else clampI ((4 * (x.ones : Int)) / 25 - 600) (-400) 2400

/-- A group at a temperature sample event (R87). -/
def Group.tempSample (x : Group) (tTrip : Int) : Group :=
  { x with temp := x.tempOf tTrip, tempRead := true, ones := 0 }

/-- A MODULE_OVERTEMP notice for a slot whose group reads T_TRIP or above (R89). -/
def State.overtempNotice (s : State) (i : SlotId) : State :=
  match (s.slot i).group with
  | some g => if s.image.tTrip ≤ (s.group g).temp then s.takeNotice i .moduleOvertemp none else s
  | none => s

/-- The work of a temperature sample event (R87 to R90). -/
def State.tempEvent (s : State) (order : List SlotId) : State :=
  let t := s.mapGroups fun _ x => x.tempSample s.image.tTrip
  let t := t.setFlagIf t.tempWarm .tempWarn
  (slotsInOrder order).foldl State.overtempNotice t

/-! ### Period event -/

/-- The shadow taken as active compare at a period event (R60, R61). -/
def Leg.takeShadow (x : Leg) (hp dt now : Nat) : Leg :=
  match x.func with
  | .phase _ _ _ =>
    match x.shadow with
    | some c =>
      { x.setTarget dt now (idealState c hp 0) with
        drive := .switching, active := some c, shadow := none }
    | none =>
      { x.setTarget dt now .none with drive := .off, active := none, shadow := none }
  | _ => x

/-- The period sample of a leg (R74). -/
def Leg.takeSample (x : Leg) : Leg := { x with sample := sat16 (x.raw - x.offset) }

/-- The sum of the period samples of a slot's legs, exact (R85). -/
def State.currentSum (s : State) (x : Slot) : Int := (x.seats.map fun t => (s.leg t.leg).sample).sum

/-- The leg of a slot on a phase with a parallel index. -/
def Slot.legAt (x : Slot) (ph : Phase) (ix : Fin 2) : Option LegId :=
  (x.seats.find? fun t => t.phase = ph ∧ t.index = ix).map Seat.leg

/-- The difference of the two legs of a paralleled phase, none for a phase with one leg (R86). -/
def State.imbalance (s : State) (x : Slot) (ph : Phase) : Option Int :=
  match x.legAt ph 0, x.legAt ph 1 with
  | some a, some b => some ((s.leg a).sample - (s.leg b).sample)
  | _, _ => none

/-- A count and mark stepped by one check: out of tolerance they rise and set, up to `n`, in tolerance
they return to 0 and clear (R85, R86). -/
def stepCount (count n : Nat) (out : Bool) : Nat := if out then (if count = n then n else count + 1) else 0

/-- One phase's imbalance check (R86). -/
def State.imbOut (s : State) (i : SlotId) (x : Slot) (ph : Phase) : Option Bool :=
  (s.imbalance x ph).map fun d => decide (s.image.ibalTol i < d.natAbs)

/-- The period checks of a slot (R84 to R86). -/
def State.checkSlot (s : State) (i : SlotId) (x : Slot) : PeriodCheck :=
  let n := s.image.isumN i
  let out := decide (s.image.isumTol i < (s.currentSum x).natAbs)
  let phaseAt : Fin 3 → Phase := fun k => if k.val = 0 then .u else if k.val = 1 then .v else .w
  { sumCount := stepCount x.check.sumCount n out
    sumMark := out
    imbCount := Vector.ofFn fun k =>
      match s.imbOut i x (phaseAt k) with
      | some b => stepCount x.check.imbCount[k] n b
      | none => 0
    imbMark := Vector.ofFn fun k => (s.imbOut i x (phaseAt k)).getD false }

/-- A calibration sample: each leg's raw value is added to its sum (R82). -/
def State.calSample (s : State) (x : Slot) (c : CalRecord) : CalRecord :=
  { count := c.count + 1
    sums := List.zipWith (fun t sum => sum + (s.leg t.leg).raw) x.seats c.sums }

/-- A slot of the group at a period event: checked when it runs, sampled when it calibrates (R82,
R84). -/
def State.periodSlot (s : State) (g : GroupId) (i : SlotId) (x : Slot) : Slot :=
  if x.group = some g then
    let y := if x.state.isRunning then { x with check := s.checkSlot i x } else x
    match x.cal with
    | some c => { y with cal := some (s.calSample x c) }
    | none => y
  else x

/-- What a period event does before its works: the shadows are taken, the samples taken, the checks
stepped, the calibration samples added (R60, R74, R82, R84). -/
def State.periodStart (s : State) (g : GroupId) : State :=
  let t := (s.setGroup g { s.group g with periodStart := s.now }).mapLegs fun l x =>
    if groupOf l = g then (x.takeShadow (s.image.hp g) (s.deadTime l) s.now).takeSample else x
  t.mapSlots fun i x => t.periodSlot g i x

/-- A CURRENT_SUM notice stands out: the slot runs and its sum count stands at ISUM_N (R85). -/
def State.currentSumDue (s : State) (i : SlotId) : Bool :=
  (s.slot i).state.isRunning && (s.slot i).check.sumCount == s.image.isumN i

/-- The CURRENT_SUM notice is taken (R85). -/
def State.currentSumNotice (s : State) (i : SlotId) : State :=
  if s.currentSumDue i then s.takeNotice i .currentSum none else s

/-- A LEG_IMBALANCE notice stands out: the slot runs and the phase's count stands at ISUM_N (R86). -/
def State.legImbalanceDue (s : State) (i : SlotId) (ph : Phase) : Bool :=
  (s.slot i).state.isRunning && (s.slot i).check.imbCount[phaseIndex ph] == s.image.isumN i

/-- The LEG_IMBALANCE notice is taken, naming the leg of parallel index 0 of the phase (R86). -/
def State.legImbalanceNotice (s : State) (i : SlotId) (ph : Phase) : State :=
  if s.legImbalanceDue i ph then s.takeNotice i .legImbalance ((s.slot i).legAt ph 0) else s

/-! ### Calibration completion -/

/-- The new offset of each leg of a slot's leg set, in leg order (R82). -/
def Slot.newOffsets (x : Slot) : List (LegId × Int) :=
  match x.cal with
  | some c => List.zipWith (fun t sum => (t.leg, roundDiv sum 256)) x.seats c.sums
  | none => []

/-- The first leg, in leg order, whose new offset lies outside ±OFS_MAX (R11). -/
def State.failingLeg (s : State) (i : SlotId) : Option LegId :=
  ((s.slot i).newOffsets.find? fun p => decide (s.image.ofsMax < p.2.natAbs)).map Prod.fst

/-- The offsets of a slot installed, and the slot in RUN (R11, R75). -/
def State.calPass (s : State) (i : SlotId) : State :=
  let offs := (s.slot i).newOffsets
  (s.mapLegs fun l x =>
      match offs.find? fun p => p.1 = l with
      | some p => { x with offset := p.2 }
      | none => x).setSlot i { s.slot i with state := .run, cal := none }

/-- A failed calibration: a member with a failing leg records OFFSET with it, any other PARTNER
(R11). -/
def State.calFail (s : State) (i : SlotId) (leg : Option LegId) : State :=
  match leg with
  | some l => s.recordFault i .offset (some l)
  | none => s.recordFault i .partner none

/-- The slots that complete together: a slot alone, or lead and follower, which calibrate together
(R11, R19). -/
def State.calMembers (s : State) (i : SlotId) : List SlotId :=
  i :: (s.slot i).partner.toList.filter fun p => (s.slot p).state == .calibrating && p != i

/-- A calibration is complete: the slot is in CALIBRATING and its record holds 256 samples (R82). -/
def State.calDue (s : State) (i : SlotId) : Bool :=
  (s.slot i).state == .calibrating &&
    (s.slot i).cal.any fun c => decide (Config.calSamples ≤ c.count)

/-- Slot Control takes the completion, of a pair as one (R11). -/
def State.calComplete (s : State) (i : SlotId) : State :=
  if s.calDue i then
    let ms := s.calMembers i
    if ms.all fun m => (s.failingLeg m).isNone then ms.foldl State.calPass s
    else ms.foldl (fun t m => t.calFail m (s.failingLeg m)) s
  else s

end Sys2Proof.Machine
end

