-- ==== Sys2Proof/Machine/Agenda.lean ====
section
/-! DEFINITION. The works owed at one instant (logs 3, 4, 5): what each does, the order in which an
event leaves them, how a command with a row of its own takes its work, and how the clock leaves an
instant only when nothing is owed there. -/

namespace Sys2Proof.Machine

/-- What a work does. Each acts only when the condition its rule names stands. -/
def perform (w : Work) (s : State) : State :=
  match w with
  | .toffAccept high => s.acceptToff high
  | .legSamples drdy => s.sampleLegs drdy
  | .streamNotice l => s.streamNotice l
  | .driverNotice l => s.driverNotice l
  | .overcurrent l => s.overcurrentNotice l
  | .linkReset k => s.linkResetWork k
  | .cycleEdge => s.numberCycle
  | .generation active => s.setGeneration active
  | .serve d => s.serveHead d
  | .applyStaged i => s.applyStaged i
  | .intake d => s.intake d
  | .stale d => s.staleNotices d []
  | .closeCycle => s.closeCycle
  | .allocate => s.allocate
  | .freshness => s.stepFreshness
  | .countdown => s.countdown
  | .stopExpiry i => s.stopExpiryWork i
  | .faultCopy i => s.faultCopy i
  | .snapshot d => s.buildSnapshot d
  | .safetySnapshot => s.buildSafetySnapshot
  | .compute g => s.computeGroup g
  | .currentSum i => s.currentSumNotice i
  | .legImbalance i ph => s.legImbalanceNotice i ph
  | .calibrationComplete i => s.calComplete i
  | .turnOn l => s.turnOnWork l

/-- Whether a work waits, for its own command when it has a row of the table, and in the case of a turn-on
for the end of the instant: it would act now. -/
def pauses (w : Work) (s : State) : Bool :=
  match w with
  | .overcurrent l => s.overcurrentDue l
  | .linkReset k => s.linkResetDue k
  | .serve d => s.canServe d
  | .stale d => s.staleDue d
  | .freshness => s.safetyTimeoutDue
  | .stopExpiry i => s.stopExpired i
  | .currentSum i => s.currentSumDue i
  | .legImbalance i ph => s.legImbalanceDue i ph
  | .calibrationComplete i => s.calDue i
  | .turnOn l => s.turnOnDue l
  | .toffAccept _ | .legSamples _ | .streamNotice _ | .driverNotice _ | .cycleEdge | .generation _
  | .applyStaged _ | .intake _ | .closeCycle | .allocate | .countdown | .faultCopy _ | .snapshot _
  | .safetySnapshot | .compute _ => false

/-- Works done in order, waiting ones too. -/
def performAll (ws : List Work) (s : State) : State := ws.foldl (fun s w => perform w s) s

/-- Works done in order up to the first that waits for its own command; the rest is owed. -/
def runWorks : List Work → State → State
  | [], s => { s with agenda := [] }
  | w :: ws, s => if pauses w s then { s with agenda := w :: ws } else runWorks ws (perform w s)

/-- The works owed are done as far as none waits for its own command. -/
def State.resume (s : State) : State := runWorks s.agenda s

/-- A turn-on, which is the last thing at its instant (R56). -/
def isTurnOn : Work → Bool
  | .turnOn _ => true
  | _ => false

/-- The works owed but for the turn-ons, and the turn-ons. -/
def State.worksOwed (s : State) : List Work := s.agenda.filter fun w => !isTurnOn w
def State.turnOnsOwed (s : State) : List Work := s.agenda.filter isTurnOn

/-- Everything owed at this instant is done but the turn-ons, which wait for its end. -/
def State.settle (s : State) : State := { performAll s.worksOwed s with agenda := s.turnOnsOwed }

/-- Everything owed at this instant is done, the turn-ons last: those of legs whose target has not changed
at it (R56, log 31). -/
def State.close (s : State) : State := { performAll s.settle.agenda s.settle with agenda := [] }

/-- A work owed last at this instant. -/
def State.owe (s : State) (w : Work) : State :=
  if s.agenda.contains w then s else { s with agenda := s.agenda ++ [w] }

/-- The clock comes to count `t`. An instant is left only when what is owed there has been done, and
the marks of stop counters loaded there are cleared (R142). -/
def State.arrive (s : State) (t : Nat) : State :=
  if s.now < t then
    ({ s.close with now := t }).mapSlots fun _ x => { x with stopLoaded := false }
  else s

/-- The clock comes to the instant `due` reads from the state in which nothing but turn-ons is owed any more
at the present one. -/
def State.arriveAt (s : State) (due : State → Nat) : State :=
  if s.now < due s then s.settle.arrive (due s.settle) else s

/-- A command takes the work of its row: the works before it are done, then, if it still stands out,
the work itself by `f`, then those after it that do not wait. A work that is not owed, or no longer
stands out, makes the command one without effect (log 2). -/
def State.takeRow (s : State) (w : Work) (due : State → Bool) (f : State → State) : State :=
  if s.agenda.contains w then
    let t := performAll (s.agenda.takeWhile fun x => x != w) s
    if due t then
      let after := (s.agenda.dropWhile fun x => x != w).drop 1
      runWorks after (f t)
    else s
  else s

/-- A command that serves the head of a link's queue, when the request there is of its kind. -/
def State.takeServed (s : State) (d : DriveLink) (k : Kind) (f : State → State) : State :=
  s.takeRow (.serve d) (fun t => t.headIs d k) f

/-! ### The order of works -/

/-- The works of a cycle event that a link reset of the same link finds all done or all still to be done:
the reset is taken before the cycle event or after it (R173). -/
def resetPeers : Link → List Work
  | .a => [.serve .a, .intake .a, .snapshot .a]
  | .b => [.serve .b, .intake .b, .snapshot .b]
  | .s => []

/-- Whether a work must be taken before another, where both are due (R76, R104, R118, R129, R142, R169,
R27). -/
def mustPrecede (x w : Work) : Bool :=
  match w with
  | .overcurrent _ | .streamNotice _ | .driverNotice _ =>
    match x with
    | .legSamples _ => true
    | _ => false
  | .generation _ | .serve _ | .applyStaged _ | .intake _ | .closeCycle | .freshness | .countdown
  | .faultCopy _ | .safetySnapshot => x == .cycleEdge
  | .stale d => x == .cycleEdge || x == .intake d
  | .allocate => x == .cycleEdge || x == .closeCycle
  | .stopExpiry _ => x == .cycleEdge || x == .countdown
  | .snapshot d => x == .cycleEdge || x == .serve d
  | .calibrationComplete _ =>
    match x with
    | .compute _ => true
    | _ => false
  | .toffAccept _ | .legSamples _ | .linkReset _ | .cycleEdge | .compute _ | .currentSum _
  | .legImbalance _ _ | .turnOn _ => false

/-- Whether a work must be taken before another once the works `placed` have been: a link reset behind one
of its peers comes behind all of them (R173). -/
def mustPrecedeNow (placed : List Work) (x w : Work) : Bool :=
  mustPrecede x w ||
    match w with
    | .linkReset k => (resetPeers k).any placed.contains && (x == .cycleEdge || (resetPeers k).contains x)
    | _ => false

/-- The works still to be placed that must come before work `w`. -/
def worksAhead (due placed : List Work) (w : Work) : List Work :=
  due.filter fun x => mustPrecedeNow placed x w && x != w && !placed.contains x

/-- A work placed behind those already placed, after the works that must come before it. -/
def placeWork (due placed : List Work) (w : Work) : List Work :=
  if placed.contains w then placed else placed ++ worksAhead due placed w ++ [w]

/-- The works that are due, in the order that `order` names first, as far as the rules of `mustPrecede` and
`resetPeers` leave it open, and then in the order of `due` (log 5). -/
def arrange (order due : List Work) : List Work :=
  let head := (order.filter fun w => due.contains w).foldl (placeWork due) []
  head ++ due.filter fun w => !head.contains w

/-- The two drive links. -/
def bothLinks : List DriveLink := [.a, .b]

/-- The works of a cycle event. No request is served in LOADING (R169). Only a value that waits already is
applied: one staged at this cycle event waits for the next, unless others of its slot are applied after
it (R22). -/
def State.cycleWorks (s : State) : List Work :=
  (if s.mode = .setup ∨ s.mode = .operate then bothLinks.map Work.serve else []) ++
    (allSlots.filter fun i => (s.slot i).hasStaged).map Work.applyStaged ++
    bothLinks.map Work.intake ++ bothLinks.map Work.stale ++
    [Work.closeCycle, Work.allocate, Work.freshness, Work.countdown] ++
    allSlots.map Work.stopExpiry ++ allSlots.map Work.faultCopy ++ bothLinks.map Work.snapshot ++
    [Work.safetySnapshot]

/-- A cycle event of this instant has done some of a link's works and still owes others: a link reset can only
come behind them (R173). -/
def State.midCycle (s : State) (k : Link) : Bool :=
  let peers := (resetPeers k).filter fun w => s.cycleWorks.contains w
  (peers.any fun w => s.agenda.contains w) && peers.any fun w => !s.agenda.contains w

/-- A work of a new event that must come behind those owed already (R173). -/
def State.behind (s : State) (w : Work) : Bool :=
  match w with
  | .linkReset k => s.midCycle k
  | _ => false

/-- An event leaves its works: they stand before those owed already at this instant, but for a link reset
that comes in the midst of its link's cycle event, and the turn-ons last of all. They are done as far as
none waits. -/
def State.post (s : State) (order due : List Work) : State :=
  let ws := arrange order due
  runWorks ((ws.filter fun w => !s.behind w) ++ s.worksOwed ++ ws.filter s.behind ++ s.turnOnsOwed) s

/-- The three links. -/
def allLinks : List Link := [.a, .b, .s]

/-- The legs of a slot's leg set: those that raise notices (R76). -/
def State.seatedLegs (s : State) : List LegId := allLegs.filter fun l => (s.slotOfLeg l).isSome

/-- The works that a fast sample event leaves, the lines having been sampled: the samples of the legs, the
TOFF level to be accepted, the notices of the legs of a slot's leg set, each of which looks at its own
condition when it is taken, the link resets, and the cycle event of an accepted rising edge with the end
of internal generation (R76, R118, R120, R144, R173). `p` is the state before the samples. -/
def State.fastWorks (s p : State) (pins : FastPins) : List Work :=
  Work.legSamples pins.drdy ::
    ((if p.safety.toffLast = some pins.toff ∧ p.safety.toffHigh ≠ pins.toff then
        [Work.toffAccept pins.toff] else []) ++
      s.seatedLegs.map Work.overcurrent ++ s.seatedLegs.map Work.streamNotice ++
      s.seatedLegs.map Work.driverNotice ++
      (if p.cyc.level = false ∧ s.cyc.level = true ∧ s.edgeCounts = true then
        Work.cycleEdge :: Work.generation false :: s.cycleWorks else []) ++
      (allLinks.filter s.linkResetDue).map Work.linkReset)

/-- The works that a period event leaves, its samples and checks having been taken (R26, R82, R85,
R86). The lead's completion is the pair's (R11). -/
def State.periodWorks (s : State) (g : GroupId) : List Work :=
  .compute g ::
    (((s.slotsOf g).filter s.currentSumDue).map .currentSum ++
      ((s.slotsOf g).flatMap fun i =>
        ([.u, .v, .w].filter fun ph => s.legImbalanceDue i ph).map (.legImbalance i)) ++
      ((s.slotsOf g).filter fun i => s.calDue i && s.leadOf i == i).map .calibrationComplete)

end Sys2Proof.Machine
end

