-- ==== Sys2Proof/Machine/Events.lean ====
section
/-! DEFINITION. The events of the part's own clocks: FAST_SAMPLE_EVENT, CYC_LOSS_TIMEOUT,
INTERNAL_CYCLE_EVENT, PERIOD_EVENT, V_DC_SAMPLE_EVENT, TEMP_SAMPLE_EVENT, MODULATOR_CLOCK_EDGE,
CARRIER_COMPARE_MATCH and DEAD_TIME_TURN_ON. -/

namespace Sys2Proof.Machine

/-! ### Sample events -/

/-- The instant of a fast sample event: the next multiple of 1 µs (R76). -/
def State.atFastSample (s : State) : State :=
  let t := s.arrive (nextInstant Config.fastPeriod s.lastFast s.now)
  { t with lastFast := t.now }

/-- The lines sampled at a fast sample event: CYC, TOFF and the links' data lines (R117, R144, R173). The
legs are sampled by a work of the event, so that a request served at a cycle event of the same instant
may find their sources before or after it (R25, R162). -/
def State.lineSamples (s : State) (pins : FastPins) : State :=
  ((s.sampleCyc pins).sampleLinks pins).sampleToff pins

/-- A fast sample event: the lines sampled, then the works that leaves (R76). -/
def State.fastSampleEvent (s : State) (pins : FastPins) (order : List Work) : State :=
  if s.mode = .reset then s
  else
    let p := s.atFastSample
    let t := p.lineSamples pins
    t.post order (t.fastWorks p pins)

/-- FAST_SAMPLE_EVENT. -/
def execFastSampleEvent (pins : FastPins) (order : List Work) (s : State) :
    Host.Outcome State Fault Refusal :=
  .next (s.fastSampleEvent pins order)

/-- The instant of a V_dc sample event: the next multiple of 20 µs (R92). -/
def State.atVdcSample (s : State) : State :=
  let t := s.arrive (nextInstant Config.vdcPeriod s.lastVdc s.now)
  { t with lastVdc := t.now }

/-- A V_dc sample event (R92 to R98). -/
def State.vDcSampleEvent (s : State) (order : List SlotId) : State :=
  if s.mode = .reset then s else s.atVdcSample.vdcEvent order

/-- V_DC_SAMPLE_EVENT. -/
def execVDcSampleEvent (order : List SlotId) (s : State) : Host.Outcome State Fault Refusal :=
  .next (s.vDcSampleEvent order)

/-- The instant of a temperature sample event: the next multiple of 1 ms (R87). -/
def State.atTempSample (s : State) : State :=
  let t := s.arrive (nextInstant Config.tempPeriod s.lastTemp s.now)
  { t with lastTemp := t.now }

/-- A temperature sample event (R87 to R90). -/
def State.tempSampleEvent (s : State) (order : List SlotId) : State :=
  if s.mode = .reset then s else s.atTempSample.tempEvent order

/-- TEMP_SAMPLE_EVENT. -/
def execTempSampleEvent (order : List SlotId) (s : State) : Host.Outcome State Fault Refusal :=
  .next (s.tempSampleEvent order)

/-- The instant of a rising edge of MCKg: the next multiple of 5 counts (R72). -/
def State.atModulatorEdge (s : State) (g : GroupId) : State :=
  let t := s.arrive (nextInstant Config.mckPeriod (s.group g).lastMck s.now)
  t.setGroup g { t.group g with lastMck := t.now }

/-- A rising edge of MCKg and the bits it takes; the clock stands while RST is low (R72). -/
def State.modulatorClockEdge (s : State) (g : GroupId) (ibs : BitVec 6) (tbs vbs : Bool) : State :=
  if s.mode = .reset then s else (s.atModulatorEdge g).takeBits g ibs tbs vbs

/-- MODULATOR_CLOCK_EDGE. -/
def execModulatorClockEdge (g : GroupId) (ibs : BitVec 6) (tbs vbs : Bool) (s : State) :
    Host.Outcome State Fault Refusal :=
  .next (s.modulatorClockEdge g ibs tbs vbs)

/-! ### Cycle events the part makes itself -/

/-- The loss timeout: no cycle event for 1.5·T_CYC while internal generation is INACTIVE. The cycle event is
made, and among its works generation becomes ACTIVE (R119). Where a T_CYC newly in force puts the timeout
before the present instant, it is due at the present one (the model's choice, log 34). -/
def State.cycLossTimeout (s : State) (order : List Work) : State :=
  if s.mode ≠ .reset ∧ s.settle.cyc.genActive = false then
    let t := s.settle
    let t := (t.arrive (t.cyc.refInstant + Config.lossFactor * t.image.tCyc)).numberCycle
    t.post order (.generation true :: t.cycleWorks)
  else s

/-- CYC_LOSS_TIMEOUT. -/
def execCycLossTimeout (order : List Work) (s : State) : Host.Outcome State Fault Refusal :=
  .next (s.cycLossTimeout order)

/-- A cycle event T_CYC after the last one while internal generation is ACTIVE (R119); at the present instant
where a T_CYC newly in force puts it before that (the model's choice, log 34). -/
def State.internalCycleEvent (s : State) (order : List Work) : State :=
  if s.mode ≠ .reset ∧ s.settle.cyc.genActive = true then
    let t := s.settle
    let t := (t.arrive (t.cyc.refInstant + Config.cycleFactor * t.image.tCyc)).numberCycle
    t.post order t.cycleWorks
  else s

/-- INTERNAL_CYCLE_EVENT. -/
def execInternalCycleEvent (order : List Work) (s : State) : Host.Outcome State Fault Refusal :=
  .next (s.internalCycleEvent order)

/-! ### Carrier events -/

/-- The instant at which a group's counter comes back to its bottom (R57). -/
def State.periodEnd (s : State) (g : GroupId) : Nat :=
  (s.group g).periodStart + 2 * s.image.hp g

/-- A period event of a group; there are none unless the carriers run (R58, R60). -/
def State.periodEvent (s : State) (g : GroupId) (order : List Work) : State :=
  let t := s.arriveAt fun t => t.periodEnd g
  if s.mode = .operate ∧ t.mode = .operate then
    let u := t.periodStart g
    u.post order (u.periodWorks g)
  else s

/-- PERIOD_EVENT. -/
def execPeriodEvent (g : GroupId) (order : List Work) (s : State) : Host.Outcome State Fault Refusal :=
  .next (s.periodEvent g order)

/-- A leg's compare match stands out: the carriers run, and the leg is SWITCHING with 0 < C < HP
(R61). -/
def State.matchDue (s : State) (l : LegId) : Bool :=
  s.mode == .operate && (s.leg l).drive == .switching &&
    (s.leg l).active.any fun c => decide (0 < c) && decide (c < s.image.hp (groupOf l))

/-- The count of a compare match within the period: HP - C on the rise, HP + C on the fall (R61). -/
def matchCount (slope : Slope) (hp c : Nat) : Nat :=
  match slope with
  | .rise => hp - c
  | .fall => hp + c

/-- The instant of a leg's compare match (R61). -/
def State.matchInstant (l : LegId) (slope : Slope) (s : State) : Nat :=
  (s.group (groupOf l)).periodStart +
    matchCount slope (s.image.hp (groupOf l)) ((s.leg l).active.getD 0)

/-- The target of a leg follows its ideal state at the count in progress (R56, R61). -/
def State.followIdeal (s : State) (l : LegId) : State :=
  let x := s.leg l
  s.setLeg l (x.setTarget (s.deadTime l) s.now
    (idealState (x.active.getD 0) (s.image.hp (groupOf l)) (s.carrierCount (groupOf l))))

/-- A compare match of a SWITCHING leg (R56, R61). -/
def State.carrierCompareMatch (s : State) (l : LegId) (slope : Slope) : State :=
  let t := s.arriveAt (State.matchInstant l slope)
  if s.matchDue l = true ∧ t.matchDue l = true then t.followIdeal l else s

/-- CARRIER_COMPARE_MATCH. -/
def execCarrierCompareMatch (l : LegId) (slope : Slope) (s : State) :
    Host.Outcome State Fault Refusal :=
  .next (s.carrierCompareMatch l slope)

/-- The instant at which a leg's pending turn-on falls due (R56). -/
def State.turnOnInstant (l : LegId) (s : State) : Nat :=
  match (s.leg l).pendingOn with
  | some p => p.due
  | none => 0

/-- The target that the carrier calls for at the present instant, that of a period event of the group
included when one falls due here: what the leg's target must still be for a turn-on to be carried out
(R56, R60 to R62). A leg that is not SWITCHING keeps its own. -/
def State.calledTarget (s : State) (l : LegId) : Target :=
  let x := s.leg l
  let hp := s.image.hp (groupOf l)
  if s.mode = .operate ∧ x.drive = .switching then
    if s.periodEnd (groupOf l) ≤ s.now then
      match x.shadow with
      | some c => idealState c hp 0
      | none => .none
    else idealState (x.active.getD 0) hp (s.carrierCount (groupOf l))
  else x.target

/-- The pending turn-on of a leg falls due. It is the last thing at its instant: the switch comes on as the
clock leaves it, unless the target has changed by then. When the carrier calls for another target at that
very instant, the turn-on is cancelled at once, and the change is carried out in its place (R56, R62,
log 31). -/
def State.deadTimeTurnOn (s : State) (l : LegId) : State :=
  let t := s.arriveAt (State.turnOnInstant l)
  match (s.leg l).pendingOn, (t.leg l).pendingOn with
  | some _, some _ =>
    if t.calledTarget l = (t.leg l).target then t.owe (.turnOn l)
    else t.setLeg l ((t.leg l).setTarget (t.deadTime l) t.now (t.calledTarget l))
  | _, _ => s

/-- DEAD_TIME_TURN_ON. -/
def execDeadTimeTurnOn (l : LegId) (s : State) : Host.Outcome State Fault Refusal :=
  .next (s.deadTimeTurnOn l)

end Sys2Proof.Machine
end

