-- ==== Sys2Proof/Machine/Owed.lean ====
section
/-! DEFINITION. The commands that take a work owed at the present instant by the part's own blocks:
OVERCURRENT, SETPOINT_STALE, SAFETY_TIMEOUT, STOP_COUNTER_EXPIRY, LINK_RESET, CALIBRATION_COMPLETE,
CURRENT_SUM and LEG_IMBALANCE. A command whose work is not owed, or no longer stands out, has no
effect (logs 2, 4). -/

namespace Sys2Proof.Machine

/-- OVERCURRENT on a leg (R77). -/
def execOvercurrent (l : LegId) (s : State) : Host.Outcome State Fault Refusal :=
  .next (s.takeRow (.overcurrent l) (fun t => t.overcurrentDue l) (fun t => t.overcurrentNotice l))

/-- SETPOINT_STALE on a drive link, its notices taken in the order given (R129). -/
def execSetpointStale (d : DriveLink) (order : List SlotId) (s : State) :
    Host.Outcome State Fault Refusal :=
  .next (s.takeRow (.stale d) (fun t => t.staleDue d) (fun t => t.staleNotices d order))

/-- SAFETY_TIMEOUT: the step of the freshness counter that reaches SAFE_TMO (R137, R140). -/
def execSafetyTimeout (s : State) : Host.Outcome State Fault Refusal :=
  .next (s.takeRow .freshness State.safetyTimeoutDue State.stepFreshness)

/-- STOP_COUNTER_EXPIRY of a slot (R14). -/
def execStopCounterExpiry (i : SlotId) (s : State) : Host.Outcome State Fault Refusal :=
  .next (s.takeRow (.stopExpiry i) (fun t => t.stopExpired i) (fun t => t.stopExpiryWork i))

/-- LINK_RESET of a link (R173). -/
def execLinkReset (k : Link) (s : State) : Host.Outcome State Fault Refusal :=
  .next (s.takeRow (.linkReset k) (fun t => t.linkResetDue k) (fun t => t.linkResetWork k))

/-- CALIBRATION_COMPLETE of a slot; a pair's completion is one, and is its lead's (R11). -/
def execCalibrationComplete (i : SlotId) (s : State) : Host.Outcome State Fault Refusal :=
  .next (s.takeRow (.calibrationComplete (s.leadOf i)) (fun t => t.calDue (s.leadOf i))
    (fun t => t.calComplete (s.leadOf i)))

/-- CURRENT_SUM of a slot (R85). -/
def execCurrentSum (i : SlotId) (s : State) : Host.Outcome State Fault Refusal :=
  .next (s.takeRow (.currentSum i) (fun t => t.currentSumDue i) (fun t => t.currentSumNotice i))

/-- LEG_IMBALANCE of a phase of a slot (R86). -/
def execLegImbalance (i : SlotId) (ph : Phase) (s : State) : Host.Outcome State Fault Refusal :=
  .next (s.takeRow (.legImbalance i ph) (fun t => t.legImbalanceDue i ph)
    (fun t => t.legImbalanceNotice i ph))

end Sys2Proof.Machine
end

