-- ==== Sys2Proof/Machine/Served.lean ====
section
/-! DEFINITION. The commands that serve the request at the head of a drive link's queue, at the cycle
event that owes the serving (R169, R170). A command whose link has nothing of its kind to serve has no
effect (logs 2, 4). -/

namespace Sys2Proof.Machine

/-- Serving CLAIM (R6). -/
def execClaim (d : DriveLink) (s : State) : Host.Outcome State Fault Refusal :=
  .next (s.takeServed d .claim fun t => t.serveClaim d)

/-- Serving RELEASE (R7). -/
def execRelease (d : DriveLink) (s : State) : Host.Outcome State Fault Refusal :=
  .next (s.takeServed d .release fun t => t.serveRelease d)

/-- Serving ENABLE (R8). -/
def execEnable (d : DriveLink) (s : State) : Host.Outcome State Fault Refusal :=
  .next (s.takeServed d .enable fun t => t.serveEnable d)

/-- Serving DISABLE (R9). -/
def execDisable (d : DriveLink) (s : State) : Host.Outcome State Fault Refusal :=
  .next (s.takeServed d .disable fun t => t.serveDisable d)

/-- Serving CLEAR (R10). -/
def execClear (d : DriveLink) (s : State) : Host.Outcome State Fault Refusal :=
  .next (s.takeServed d .clear fun t => t.serveClear d)

/-- Serving RESERVE (R101, R102). -/
def execReserve (d : DriveLink) (s : State) : Host.Outcome State Fault Refusal :=
  .next (s.takeServed d .reserve fun t => t.serveReserve d)

/-- Serving READ_FAULTS (R155). -/
def execReadFaults (d : DriveLink) (s : State) : Host.Outcome State Fault Refusal :=
  .next (s.takeServed d .readFaults fun t => t.serveReadFaults d)

/-- Serving READ_GLOBAL (R159). -/
def execReadGlobal (d : DriveLink) (s : State) : Host.Outcome State Fault Refusal :=
  .next (s.takeServed d .readGlobal fun t => t.serveReadGlobal d)

/-- Serving READ_PARAM (R181). -/
def execReadParam (d : DriveLink) (s : State) : Host.Outcome State Fault Refusal :=
  .next (s.takeServed d .readParam fun t => t.serveReadParam d)

/-- Serving WRITE_PARAM (R21, R181). -/
def execWriteParam (d : DriveLink) (s : State) : Host.Outcome State Fault Refusal :=
  .next (s.takeServed d .writeParam fun t => t.serveWriteParam d)

/-- Serving ENTER_SETUP (R182). -/
def execEnterSetup (d : DriveLink) (s : State) : Host.Outcome State Fault Refusal :=
  .next (s.takeServed d .enterSetup fun t => t.serveEnterSetup d)

/-- Serving LEAVE_SETUP (R182). -/
def execLeaveSetup (d : DriveLink) (s : State) : Host.Outcome State Fault Refusal :=
  .next (s.takeServed d .leaveSetup fun t => t.serveLeaveSetup d)

/-- Serving STORE (R170, R183). -/
def execStore (d : DriveLink) (s : State) : Host.Outcome State Fault Refusal :=
  .next (s.takeServed d .store fun t => t.serveStore d)

/-- Serving FORCE_LEG (R68, R69). -/
def execForceLeg (d : DriveLink) (s : State) : Host.Outcome State Fault Refusal :=
  .next (s.takeServed d .forceLeg fun t => t.serveForceLeg d)

/-- Serving a request of an unknown kind (R169). -/
def execUnknownKind (d : DriveLink) (s : State) : Host.Outcome State Fault Refusal :=
  .next (s.takeServed d .unknown fun t => t.serveUnknown d)

end Sys2Proof.Machine
end

