-- ==== Sys2Proof/Machine/StartUp.lean ====
section
/-! DEFINITION. The commands of start-up and of the nonvolatile store: DEVICE_RESET, RST_RELEASED,
LOAD_PAGE_READ, LOAD_COMPLETE (R177, R178) and STORE_PAGE_DONE (R183). -/

namespace Sys2Proof.Machine

/-- RST goes low: every item takes its value after a device reset; the nonvolatile store, the levels
at the select pins and the commands that wait stay (R3, R71, R91, R99, R116, R122, R133, R151, R174,
R177, logs 6 and 9). A page that a STORE was programming keeps what it held (the model's choice,
log 10). -/
def State.deviceReset (s : State) : State :=
  { State.reset with
    nv := s.nv
    ports := Vector.ofFn fun k => { Port.reset with selLow := s.ports[k].selLow }
    pending := s.pending }

/-- DEVICE_RESET. -/
def execDeviceReset (s : State) : Host.Outcome State Fault Refusal := .next s.deviceReset

/-- RST has been released: LOADING begins, and every instant is counted from here (R72, R116, R177). -/
def State.rstReleased (s : State) : State :=
  if s.mode = .reset then
    { s with mode := .loading, now := 0, cyc := { s.cyc with refInstant := 0 } }
  else s

/-- RST_RELEASED. -/
def execRstReleased (s : State) : Host.Outcome State Fault Refusal := .next s.rstReleased

/-- The instant of the next page read: one every 250 µs from the release of RST, page 0 after the first of
them (R178, log 13). -/
def State.pageInstant (s : State) : Nat := (s.loadPage + 1) * Config.pagePeriod

/-- One page is read into the load buffer, page 0 first, at its instant (R178). -/
def State.loadPageRead (s : State) : State :=
  if s.mode = .loading then
    if h : s.loadPage < 8 then
      { s.arrive s.pageInstant with
        loadBuf := s.loadBuf.set s.loadPage s.nv.pages[s.loadPage] h
        loadPage := s.loadPage + 1 }
    else s
  else s

/-- LOAD_PAGE_READ. -/
def execLoadPageRead (s : State) : Host.Outcome State Fault Refusal := .next s.loadPageRead

/-- The image in the load buffer is good (R178). -/
def State.loadGood (s : State) : Bool := s.nv.mark && (imageOfPages s.loadBuf).loadsGood

/-- The image judged: a good one becomes the working image, a bad one sets IMAGE_BAD (R178). -/
def State.judgeImage (s : State) : State :=
  if s.loadGood then { s with image := imageOfPages s.loadBuf }
  else ({ s with imageBad := true }).setFlag .imageBad

/-- Every leg takes the function of its working-image entry (R54). -/
def State.takeFunctions (s : State) : State :=
  s.mapLegs fun l x => x.takeFunction (s.deadTime l) s.now s.dc.chopper (s.image.legFunc l)

/-- What load complete does, the instant having come (R178). -/
def State.finishLoading (s : State) : State :=
  let t := s.judgeImage.takeFunctions
  let t := { t with signature := t.image.signatureOf, mode := if s.loadGood then .operate else .setup }
  let t := if s.loadGood then t.deriveSlots.startCarriers else t
  t.compareSignature.reformPermissions

/-- Load complete, 2 ms after the release of RST (R177, R178). -/
def State.loadComplete (s : State) : State :=
  if s.mode = .loading ∧ s.loadPage = 8 then (s.arrive Config.loadingCounts).finishLoading else s

/-- LOAD_COMPLETE. -/
def execLoadComplete (s : State) : Host.Outcome State Fault Refusal := .next s.loadComplete

/-- The programming of the page in flight ends, and reads back as given (R183, log 10). -/
def State.storePageDone (s : State) (readBack : Page) : State :=
  match s.storeOp with
  | some op => s.pageDone op readBack
  | none => s

/-- STORE_PAGE_DONE. -/
def execStorePageDone (readBack : Page) (s : State) : Host.Outcome State Fault Refusal :=
  .next (s.storePageDone readBack)

end Sys2Proof.Machine
end

