-- ==== Sys2Proof/Machine/Wires.lean ====
section
/-! DEFINITION. The commands of the link wires: TRANSFER_START, LINK_CLOCK_EDGE, and the end of a
transfer, DRIVE_COMMAND_TELEGRAM and SAFETY_TELEGRAM (R163, R164, R166, R174). -/

namespace Sys2Proof.Machine

/-- Select goes low. While RST is low the transfer that begins is not received (R163, R174). -/
def State.transferStart (s : State) (k : Link) : State :=
  if (s.port k).selLow then s
  else if s.mode = .reset then s.setPort k { s.port k with selLow := true }
  else s.setPort k (s.port k).select

/-- TRANSFER_START. -/
def execTransferStart (k : Link) (s : State) : Host.Outcome State Fault Refusal :=
  .next (s.transferStart k)

/-- A link reset that is owed to a link at this instant is made before select goes high: the sample that
completed its count found select low (R173, log 4). -/
def State.resetOwed (s : State) (k : Link) : State :=
  s.takeRow (.linkReset k) (fun t => t.linkResetDue k) (fun t => t.linkResetWork k)

/-- Select goes high on a link; what was received is given to `take` when the link was SHIFTING
(R163, R164, R173). A telegram that comes while a cycle event of the instant is still owed some of the link's
works is accepted between them (the model's choice, log 35). -/
def State.transferEnd (s : State) (k : Link) (take : State → Nat → List Byte → State) : State :=
  if (s.port k).selLow = false then s
  else
    let t := s.resetOwed k
    let p := t.port k
    let u := if p.rx = .shifting then take t p.bitCount p.bytes else t
    u.setPort k (u.port k).deselect

/-- DRIVE_COMMAND_TELEGRAM: select of a drive link goes high (R166). -/
def execDriveCommandTelegram (d : DriveLink) (s : State) : Host.Outcome State Fault Refusal :=
  .next (s.transferEnd d.toLink fun t => t.driveTelegram d)

/-- SAFETY_TELEGRAM: select of the Safety Link goes high (R134, R166). -/
def execSafetyTelegram (s : State) : Host.Outcome State Fault Refusal :=
  .next (s.transferEnd .s State.safetyReceived)

/-- A rising edge of a link's clock: the bit on the data input is stored in SHIFTING (R163, R173). -/
def Port.risingEdge (p : Port) (sdi : Bool) : Port :=
  let q := { p with clockSeen := true }
  if p.rx = .shifting then q.bitIn sdi else q

/-- A falling edge of a link's clock: the next outgoing bit is put on the output in SHIFTING (R163). -/
def Port.fallingEdge (p : Port) : Port :=
  if p.rx = .shifting then { p with txPos := p.txPos + 1, sdo := txBit p.txBytes (p.txPos + 1) } else p

/-- An edge of a link's clock (R163). -/
def State.linkClockEdge (s : State) (k : Link) (edge : Edge) (sdi : Bool) : State :=
  if s.mode = .reset then s
  else
    match edge with
    | .rising => s.setPort k ((s.port k).risingEdge sdi)
    | .falling => s.setPort k (s.port k).fallingEdge

/-- LINK_CLOCK_EDGE. -/
def execLinkClockEdge (k : Link) (edge : Edge) (sdi : Bool) (s : State) :
    Host.Outcome State Fault Refusal :=
  .next (s.linkClockEdge k edge sdi)

end Sys2Proof.Machine
end

