-- ==== Sys2Proof/Machine/Dispatch.lean ====
section
/-! DEFINITION. One arm for each command. -/

namespace Sys2Proof.Machine

def exec (i : Instr) (s : State) : Host.Outcome State Fault Refusal :=
  match i with
  | .deviceReset => Sys2Proof.Machine.execDeviceReset s
  | .rstReleased => Sys2Proof.Machine.execRstReleased s
  | .loadPageRead => Sys2Proof.Machine.execLoadPageRead s
  | .loadComplete => Sys2Proof.Machine.execLoadComplete s
  | .fastSampleEvent pins order => Sys2Proof.Machine.execFastSampleEvent pins order s
  | .overcurrent leg => Sys2Proof.Machine.execOvercurrent leg s
  | .cycLossTimeout order => Sys2Proof.Machine.execCycLossTimeout order s
  | .internalCycleEvent order => Sys2Proof.Machine.execInternalCycleEvent order s
  | .setpointStale link order => Sys2Proof.Machine.execSetpointStale link order s
  | .safetyTimeout => Sys2Proof.Machine.execSafetyTimeout s
  | .stopCounterExpiry slot => Sys2Proof.Machine.execStopCounterExpiry slot s
  | .claim link => Sys2Proof.Machine.execClaim link s
  | .release link => Sys2Proof.Machine.execRelease link s
  | .enable link => Sys2Proof.Machine.execEnable link s
  | .disable link => Sys2Proof.Machine.execDisable link s
  | .clear link => Sys2Proof.Machine.execClear link s
  | .reserve link => Sys2Proof.Machine.execReserve link s
  | .readFaults link => Sys2Proof.Machine.execReadFaults link s
  | .readGlobal link => Sys2Proof.Machine.execReadGlobal link s
  | .readParam link => Sys2Proof.Machine.execReadParam link s
  | .writeParam link => Sys2Proof.Machine.execWriteParam link s
  | .enterSetup link => Sys2Proof.Machine.execEnterSetup link s
  | .leaveSetup link => Sys2Proof.Machine.execLeaveSetup link s
  | .store link => Sys2Proof.Machine.execStore link s
  | .storePageDone readBack => Sys2Proof.Machine.execStorePageDone readBack s
  | .forceLeg link => Sys2Proof.Machine.execForceLeg link s
  | .unknownKind link => Sys2Proof.Machine.execUnknownKind link s
  | .transferStart link => Sys2Proof.Machine.execTransferStart link s
  | .driveCommandTelegram link => Sys2Proof.Machine.execDriveCommandTelegram link s
  | .safetyTelegram => Sys2Proof.Machine.execSafetyTelegram s
  | .linkReset link => Sys2Proof.Machine.execLinkReset link s
  | .periodEvent group order => Sys2Proof.Machine.execPeriodEvent group order s
  | .calibrationComplete slot => Sys2Proof.Machine.execCalibrationComplete slot s
  | .currentSum slot => Sys2Proof.Machine.execCurrentSum slot s
  | .legImbalance slot phase => Sys2Proof.Machine.execLegImbalance slot phase s
  | .carrierCompareMatch leg slope => Sys2Proof.Machine.execCarrierCompareMatch leg slope s
  | .deadTimeTurnOn leg => Sys2Proof.Machine.execDeadTimeTurnOn leg s
  | .vDcSampleEvent order => Sys2Proof.Machine.execVDcSampleEvent order s
  | .tempSampleEvent order => Sys2Proof.Machine.execTempSampleEvent order s
  | .modulatorClockEdge group ibs tbs vbs => Sys2Proof.Machine.execModulatorClockEdge group ibs tbs vbs s
  | .linkClockEdge link edge sdi => Sys2Proof.Machine.execLinkClockEdge link edge sdi s

end Sys2Proof.Machine
end

