-- ==== Sys2Proof/Safety.lean ====
section
/-! DEFINITION. What counts as a safe run of the part: the properties of a state that every step is to
keep, in the terms the statements use, and the situations in which commands are stated. -/

namespace Sys2Proof.Machine

/-! ### Gates -/

/-- A leg that has taken a leg-map entry of function `f` at count `now` with dead time `dt`, the chopper state
being ON or not: left as it is where its function stays, and otherwise off, but for a CHOPPER leg that
takes the chopper state ON, whose high side comes on after the dead time (R54, R56, R67). -/
def Leg.tookEntry (x : Leg) (f : LegFunc) (dt now : Nat) (chopper : Bool) : Leg :=
  if x.func.code = f.code then { x with func := f }
  else if f = .chopper ∧ chopper = true then
    { x with
      func := f, drive := .high, target := .high, gl := false, active := none, shadow := none
      gh := decide (dt = 0)
      pendingOn := if dt = 0 then none else some ⟨.high, now + dt⟩ }
  else
    { x with
      func := f, drive := .off, target := .none, gh := false, gl := false, pendingOn := none
      active := none, shadow := none }

/-- The target that calls for a switch. -/
def Switch.wanted : Switch → Target
  | .high => .high
  | .low => .low

/-- A switch is on, or waits to come on, only when the target calls for it (R56). -/
structure Leg.Interlocked (x : Leg) : Prop where
  high : x.gh = true → x.target = .high
  low : x.gl = true → x.target = .low
  waits : ∀ p, x.pendingOn = some p → x.target = p.switch.wanted

/-- Every leg of the part is interlocked (R56). -/
def State.Interlocked (s : State) : Prop := ∀ l, (s.leg l).Interlocked

/-- Both switches off, no target, nothing pending. -/
structure Leg.IsOff (x : Leg) : Prop where
  drive : x.drive = .off
  target : x.target = .none
  high : x.gh = false
  low : x.gl = false
  waits : x.pendingOn = none

/-- A leg that TOFF turns off: PHASE or FORCED (R65). -/
def LegFunc.heldByToff : LegFunc → Bool
  | .phase _ _ _ => true
  | .forced => true
  | .unused => false
  | .chopper => false

/-- While the accepted TOFF level is LOW no slot is active and no PHASE or FORCED leg is driven or
loaded; an UNUSED leg is never driven (R13, R54, R65, R145). -/
structure State.TorqueOffHolds (s : State) : Prop where
  slots : s.safety.toffHigh = false → ∀ i, (s.slot i).state.isActive = false
  legs : s.safety.toffHigh = false → ∀ l, (s.leg l).func.heldByToff = true →
    (s.leg l).IsOff ∧ (s.leg l).shadow = none
  unused : ∀ l, (s.leg l).func = .unused → (s.leg l).IsOff

/-! ### Slots -/

/-- A slot has an owner exactly when it is not PARKED (R4). -/
def State.Owned (s : State) : Prop :=
  ∀ i, (s.slot i).owner = none ↔ (s.slot i).state = .parked

/-- Outside OPERATE every slot is PARKED and no effective permission lets it run (R13, R25, R138). -/
def State.ParkedOutsideOperate (s : State) : Prop :=
  s.mode ≠ .operate → ∀ i, (s.slot i).state = .parked ∧ (s.slot i).perm = .off

/-- What Torque-Off Control tells Slot Control holds of every slot. -/
structure State.PermissionsHold (s : State) : Prop where
  /-- Partners name each other (R18). -/
  pairs : ∀ i p, (s.slot i).partner = some p → (s.slot p).partner = some i
  /-- Both members of a pair carry one combined permission and limit (R19, R138). -/
  shared : ∀ i p, (s.slot i).partner = some p →
    (s.slot p).perm = (s.slot i).perm ∧ (s.slot p).lPerm = (s.slot i).lPerm
  /-- No slot is in CALIBRATING or RUN under STOP or OFF (R12). -/
  running : ∀ i, (s.slot i).state = .calibrating ∨ (s.slot i).state = .run →
    (s.slot i).perm ≠ .stop ∧ (s.slot i).perm ≠ .off
  /-- No slot is in STOPPING under OFF (R12). -/
  stopping : ∀ i, (s.slot i).state = .stopping → (s.slot i).perm ≠ .off

/-- The stop counter of a slot stands at 0 whenever the slot is not in STOPPING (R14). -/
def State.StopCountsRest (s : State) : Prop :=
  ∀ i, (s.slot i).state ≠ .stopping → (s.slot i).stopCount = 0

/-- The members of a tandem pair move together (R19). -/
structure State.PairsTogether (s : State) : Prop where
  /-- They are in one state whenever either is active. -/
  states : ∀ i p, (s.slot i).partner = some p → (s.slot i).state.isActive = true →
    (s.slot p).state = (s.slot i).state
  /-- Their stop counters reach 0 together (R14). -/
  counters : ∀ i p, (s.slot i).partner = some p → (s.slot i).state = .stopping →
    (s.slot p).stopCount = (s.slot i).stopCount ∧ (s.slot p).stopLoaded = (s.slot i).stopLoaded

/-- The reservations lie within I_IN together, and a PARKED slot has none (R7, R100). -/
structure State.BudgetHolds (s : State) : Prop where
  parked : ∀ i, (s.slot i).state = .parked → (s.slot i).resv = 0
  total : ((List.finRange 8).map fun i => (s.slot i).resv).sum ≤ s.image.iIn

/-- The scales and demands lie in their ranges (R98, R100, R111). -/
structure State.ScalesInRange (s : State) : Prop where
  slots : ∀ i, (s.slot i).kScale ≤ 32768 ∧ (s.slot i).demand ≤ 32767
  regen : s.dc.kr ≤ 32768

/-! ### Links -/

/-- No queue holds more than two requests, and no link keeps more than 255 bytes (R163, R168). -/
structure State.LinksInRange (s : State) : Prop where
  queues : ∀ d, (s.drive d).queue.length ≤ 2
  bytes : ∀ k, (s.port k).bytes.length ≤ 255

/-- A safe state. -/
structure State.Safe (s : State) : Prop where
  interlocked : s.Interlocked
  torqueOff : s.TorqueOffHolds
  owned : s.Owned
  parked : s.ParkedOutsideOperate
  permissions : s.PermissionsHold
  stopCounts : s.StopCountsRest
  pairs : s.PairsTogether
  budget : s.BudgetHolds
  scales : s.ScalesInRange
  links : s.LinksInRange

/-! ### Situations in which a command is stated -/

/-- The cycle event at hand owes link `d` the serving of request `r`, before the works `ws`; `rest` is
the queue behind it (R169, R170). -/
structure State.Serves (s : State) (d : DriveLink) (r : Request) (rest : List Request)
    (ws : List Work) : Prop where
  owed : s.agenda = .serve d :: ws
  mode : s.mode = .setup ∨ s.mode = .operate
  free : (s.drive d).hold = .free
  queue : (s.drive d).queue = r :: rest

/-- The request at the head of a link's queue has left it (R169). -/
def State.dequeued (s : State) (d : DriveLink) (rest : List Request) : State :=
  s.setDrive d { s.drive d with queue := rest }

/-- The result of request `r` stands in a link's response field (R169). -/
def State.respond (s : State) (d : DriveLink) (r : Request) (code : ResultCode)
    (value1 value2 : Word) : State :=
  s.setDrive d { s.drive d with
    response :=
      { kind := r.kind, tag := r.tag, code := BitVec.ofNat 8 code.code, target := r.target,
        value1 := value1, value2 := value2 } }

/-- A number as a 16-bit value. -/
def natWord (n : Nat) : Word := BitVec.ofNat 16 n

/-- Two PHASE legs alike in slot, phase and parallel index, the lower first (R182). -/
def Image.Alike (img : Image) (a b : LegId) : Prop :=
  a < b ∧ ∃ n ph ix, img.legFunc a = .phase n ph ix ∧ img.legFunc b = .phase n ph ix

/-- A leg map names a slot by a PHASE leg: the slot is configured in it (R182). -/
def Image.Names (img : Image) (n : SlotId) (l : LegId) : Prop :=
  ∃ ph ix, img.legFunc l = .phase n ph ix

/-- The number of a slot's PHASE legs on a phase (R182). -/
def Image.legsOn (img : Image) (n : SlotId) (ph : Phase) : Nat :=
  (List.finRange 24).countP fun l =>
    match img.legFunc l with
    | .phase m q _ => decide (m = n ∧ q = ph)
    | _ => false

/-- Check `code` of the table of R182 fails on an image, and `n` is a number it may name. -/
def Image.Fails (img : Image) (code n : Nat) : Prop :=
  (code = 1 ∧ ∃ i : SlotId, i.val = n ∧ (∃ l, img.Names i l) ∧
    ∃ ph, img.legsOn i ph = 0 ∨ 2 < img.legsOn i ph) ∨
  (code = 2 ∧ ∃ a b, img.Alike a b ∧ b.val = n) ∨
  (code = 3 ∧ ∃ i : SlotId, i.val = n ∧
    ∃ a b, img.Names i a ∧ img.Names i b ∧ groupOf a ≠ groupOf b) ∨
  (code = 4 ∧ ∃ i j : SlotId, i.val = n ∧ img.partner i = some j ∧
    (i = j ∨ img.partner j ≠ some i ∨ img.slotGroup i = none ∨
      img.slotGroup i ≠ img.slotGroup j)) ∨
  (code = 5 ∧ n = 0 ∧
    (¬(img.vUv < img.vChOff ∧ img.vChOff < img.vChOn ∧ img.vChOn < img.vRg ∧ img.vRg < img.vOv) ∨
      img.vUv < 320)) ∨
  (code = 6 ∧ n = 0 ∧ ¬img.tWarn < img.tTrip) ∨
  (code = 7 ∧ ∃ g : GroupId, g.val = n ∧ (img.hp g < 4 * img.mp g ∨ img.hp g < 4 * img.dt g))

/-- A value inside the range or the code set of a parameter (R179, R53, R161). -/
def ValueKind.Admits (k : ValueKind) (v : Word) : Prop :=
  match k with
  | .unsigned lo hi => lo ≤ v.toNat ∧ v.toNat ≤ hi
  | .signed lo hi => lo ≤ v.toInt ∧ v.toInt ≤ hi
  | .bits used => v &&& ~~~used = 0#16
  | .partnerCode => v.toNat ≤ 7 ∨ v.toNat = 255
  | .legCode =>
    v.toNat / 4096 = 0 ∨ v.toNat / 4096 = 2 ∨ v.toNat / 4096 = 3 ∨
      (v.toNat / 4096 = 1 ∧ v.toNat / 256 % 16 ≤ 7 ∧ v.toNat / 16 % 16 ≤ 2 ∧ v.toNat % 16 ≤ 1)

/-- Values as bytes, each high byte first (R165, R179, R180). -/
def bytesOfWords (ws : List Word) : List Byte :=
  ws.flatMap fun w => [BitVec.ofNat 8 (w.toNat / 256), BitVec.ofNat 8 w.toNat]

/-- Conditions 2 to 4 of R178 on an image in the load buffer. -/
structure Image.IsGood (img : Image) : Prop where
  /-- Bytes 510 and 511 hold the CRC of bytes 0 to 509. -/
  crc : crc 0xFFFF#16 (bytesOfWords (img.toList.take 255)) = img[255]
  /-- Every parameter lies in its range or code set. -/
  globals : ∀ g : Fin 27, (Item.global g).kind.Admits img[g.val]
  legs : ∀ l : LegId, (Item.leg l).kind.Admits img[32 + l.val]
  slots : ∀ (m : SlotId) (j : Fin 16),
    (Item.slot m j).kind.Admits (img[56 + 16 * m.val + j.val]'(by omega))
  /-- Every check of R182 passes. -/
  checks : ∀ code n, ¬img.Fails code n

/-- The values of the protected items in ascending identifier order: global items 0 to 26, leg-map items 0
to 23, and items 7 to 15 of each slot (R180). -/
def Image.protectedWords (img : Image) : List Word :=
  img.toList.take 27 ++ (img.toList.drop 32).take 24 ++
    (List.finRange 8).flatMap fun m => (img.toList.drop (56 + 16 * m.val + 7)).take 9

/-- The configuration signature that R180 gives an image. -/
def Image.signed (img : Image) : Word := crc 0xFFFF#16 (bytesOfWords img.protectedWords)

/-- The leg set, group and partner that R2 derives for slot `i` from an image that passes the checks. -/
structure Image.Derives (img : Image) (i : SlotId) (x : Slot) : Prop where
  /-- The leg set is the legs whose entry is PHASE naming the slot, with their phase and index. -/
  legSet : ∀ q, q ∈ x.seats ↔ legFuncOf img[32 + q.leg.val] = .phase i q.phase q.index
  /-- Each leg stands in it once, in leg order. -/
  ascending : (x.seats.map Seat.leg).Pairwise (· < ·)
  unconfigured : x.seats = [] → x.group = none
  /-- Group g holds legs 6g to 6g+5. -/
  configured : ∀ q ∈ x.seats, ∃ g, x.group = some g ∧ q.leg.val / 6 = g.val
  partner : ∀ p, x.partner = some p ↔ (img[71 + 16 * i.val]'(by omega)).toNat = p.val

/-- The slot record that R3 lays down for a device reset. -/
structure Slot.AfterReset (x : Slot) : Prop where
  state : x.state = .parked
  owner : x.owner = none
  legSet : x.seats = []
  group : x.group = none
  partner : x.partner = none
  staged : ∀ j : Fin 7, x.staged[j] = none
  setpoint : x.idW = 0 ∧ x.iqW = 0
  angle : x.theta = 0#16 ∧ x.omega = 0 ∧ x.anglePresent = false
  integrators : x.intD = 0 ∧ x.intQ = 0
  averages : x.avgD = 0 ∧ x.avgQ = 0
  budget : x.resv = 0 ∧ x.kScale = 32768 ∧ x.demand = 0
  permission : x.perm = .off ∧ x.lPerm = 0
  stopCount : x.stopCount = 0
  causes : x.causes = 0#16
  firstFault : x.firstFault = none
  snapshot : x.snapCauses = 0#16

/-- Wherever both stand in a row of works, `x` is taken before `w`. -/
def Before (ws : List Work) (x w : Work) : Prop :=
  ∀ a b : Nat, ws[a]? = some x → ws[b]? = some w → a < b

/-- The orders that the spec fixes among the works of one instant. -/
structure OrderKept (ws : List Work) : Prop where
  /-- Each work is taken once. -/
  once : ws.Nodup
  /-- The cycle event is numbered first (R118). -/
  numbered : (∀ w ∈ [Work.generation true, .generation false, .closeCycle, .allocate, .freshness,
      .countdown, .safetySnapshot], Before ws .cycleEdge w) ∧
    (∀ d, ∀ w ∈ [Work.serve d, .intake d, .stale d, .snapshot d], Before ws .cycleEdge w) ∧
    ∀ i, ∀ w ∈ [Work.applyStaged i, .stopExpiry i, .faultCopy i], Before ws .cycleEdge w
  /-- The cycle is closed before the allocation (R104). -/
  closed : Before ws .closeCycle .allocate
  /-- The intake comes before SETPOINT_STALE (R129). -/
  counted : ∀ d, Before ws (.intake d) (.stale d)
  /-- The stop counters step before one expires (R142). -/
  stepped : ∀ i, Before ws .countdown (.stopExpiry i)
  /-- A request is served before the snapshot that shows its result (R169). -/
  served : ∀ d, Before ws (.serve d) (.snapshot d)
  /-- The legs are sampled before their notices (R76). -/
  sampled : ∀ drdy l, ∀ w ∈ [Work.overcurrent l, .streamNotice l, .driverNotice l],
    Before ws (.legSamples drdy) w
  /-- A link reset comes before all that its link does at a cycle event, or after all of it (R173). -/
  reset : ∀ d : DriveLink,
    (∀ w ∈ [Work.serve d, .intake d, .snapshot d], Before ws (.linkReset d.toLink) w) ∨
      ∀ w ∈ [Work.serve d, .intake d, .snapshot d], Before ws w (.linkReset d.toLink)
  /-- The computation comes before a calibration's completion, which starts none (R27). -/
  computed : ∀ g i, Before ws (.compute g) (.calibrationComplete i)

/-- What a notice without a leg leaves of slot record `x`: FAULT under the cause, with the first-fault record
of cycle `n` when the set was empty (R16, R153). -/
structure Slot.FaultedUnder (x : Slot) (c : Cause) (n : Word) (y : Slot) : Prop where
  state : y.state = .fault
  causes : y.causes = x.causes ||| c.bit
  firstFault : y.firstFault = if x.causes = 0#16 then some ⟨c, none, n⟩ else x.firstFault
  loop : y.intD = 0 ∧ y.intQ = 0 ∧ y.stopCount = 0 ∧ y.cal = none

/-- Two slots that name each other as partner and that no other names (R18). -/
def State.Paired (s : State) (i j : SlotId) : Prop :=
  i ≠ j ∧ ∀ k, ((s.slot k).partner = some i ↔ k = j) ∧ ((s.slot k).partner = some j ↔ k = i)

/-- What notices of one cause leave of `s`, one to each slot that `hit` admits, in whatever order: a slot
alone is faulted under the cause. Of a pair, a member that is not hit is faulted under PARTNER, and of two
that are hit the first taken is faulted under the cause and the other under PARTNER (R16, R153). -/
structure State.Noticed (s : State) (c : Cause) (hit : SlotId → Prop) (t : State) : Prop where
  alone : ∀ i, hit i → (s.slot i).state.isActive = true →
    (∀ j, j ≠ i → (s.slot j).partner = some i → hit j → (s.slot j).state.isActive = false) →
    (s.slot i).FaultedUnder c s.cyc.number (t.slot i)
  withPartner : ∀ i j, s.Paired i j → hit i → ¬hit j → (s.slot i).state.isActive = true →
    (s.slot j).state.isActive = true →
    (s.slot j).FaultedUnder .partner s.cyc.number (t.slot j)
  both : ∀ i j, s.Paired i j → hit i → hit j → (s.slot i).state.isActive = true →
    (s.slot j).state.isActive = true →
    ((s.slot i).FaultedUnder c s.cyc.number (t.slot i) ∧
      (s.slot j).FaultedUnder .partner s.cyc.number (t.slot j)) ∨
    ((s.slot i).FaultedUnder .partner s.cyc.number (t.slot i) ∧
      (s.slot j).FaultedUnder c s.cyc.number (t.slot j))
  legs : ∀ i, hit i → (s.slot i).state.isActive = true →
    (t.slot i).state = .fault ∧ (t.slot i).intD = 0 ∧ (t.slot i).intQ = 0 ∧
    ∀ x ∈ (s.slot i).seats, (t.leg x.leg).IsOff ∧ (t.leg x.leg).shadow = none

/-- The works left at an instant, `ws`, are done from `s` as far as none waits for its own command
(log 4). -/
def State.thenWorks (s : State) (ws : List Work) : Host.Outcome State Fault Refusal :=
  .next (runWorks ws s)

/-- The marks of stop counters loaded at an instant are clear once the clock has left it (R142). -/
def State.atCount (s : State) (t : Nat) : State :=
  if s.now < t then ({ s with now := t }).mapSlots fun _ x => { x with stopLoaded := false } else s

end Sys2Proof.Machine
end

