-- ==== Sys2Proof/Certificates/Slice0/Obligations.lean ====
section
/-! DEFINITION. The statements for the provers: the step, what each command does, the computations of the
current loop and the budget, and the properties every step keeps. -/

open Sys2Proof Sys2Proof.Machine

/-! ### The step -/

/-- A step takes the command at the front of the queue and runs it on the queue's rest; with an empty
queue the block idles (the model's choice, log 1). -/
def Obligations.StepTakesFrontCommand : Prop :=
  ∀ (s : State),
    (∀ c rest, s.pending = c :: rest → step s = exec c { s with pending := rest }) ∧
    (s.pending = [] → step s = .next s)

/-- A command whose cause is not there has no effect: a work that is not owed, a timed event in a mode
that has none, a transfer that is not in progress (the model's choice, logs 2 and 13). -/
def Obligations.CommandsWithoutCauseDoNothing : Prop :=
  ∀ s : State,
    (∀ c w, (c, w) ∈ (List.finRange 24).map (fun l => (Instr.overcurrent l, Work.overcurrent l)) ++
        (List.finRange 8).map (fun i => (Instr.stopCounterExpiry i, Work.stopExpiry i)) ++
        (List.finRange 8).map (fun i => (Instr.currentSum i, Work.currentSum i)) ++
        (List.finRange 8).map (fun i =>
          (Instr.calibrationComplete i, Work.calibrationComplete (s.leadOf i))) ++
        [(.safetyTimeout, .freshness), (.linkReset .a, .linkReset .a),
          (.linkReset .b, .linkReset .b), (.linkReset .s, .linkReset .s)] →
      w ∉ s.agenda → exec c s = .next s) ∧
    (∀ i ph, Work.legImbalance i ph ∉ s.agenda → exec (.legImbalance i ph) s = .next s) ∧
    (∀ d order, Work.stale d ∉ s.agenda → exec (.setpointStale d order) s = .next s) ∧
    (∀ d, Work.serve d ∉ s.agenda →
      ∀ c ∈ [Instr.claim d, .release d, .enable d, .disable d, .clear d, .reserve d, .readFaults d,
          .readGlobal d, .readParam d, .writeParam d, .enterSetup d, .leaveSetup d, .store d,
          .forceLeg d, .unknownKind d],
        exec c s = .next s) ∧
    (s.mode = .reset → ∀ pins works slots g ibs tbs vbs k e b,
      ∀ c ∈ [Instr.fastSampleEvent pins works, .cycLossTimeout works, .internalCycleEvent works,
          .vDcSampleEvent slots, .tempSampleEvent slots, .modulatorClockEdge g ibs tbs vbs,
          .linkClockEdge k e b],
        exec c s = .next s) ∧
    (s.mode ≠ .reset → exec .rstReleased s = .next s) ∧
    (s.mode ≠ .loading → exec .loadPageRead s = .next s ∧ exec .loadComplete s = .next s) ∧
    (s.loadPage ≠ 8 → exec .loadComplete s = .next s) ∧
    (s.mode ≠ .operate → ∀ g order l slope,
      exec (.periodEvent g order) s = .next s ∧ exec (.carrierCompareMatch l slope) s = .next s) ∧
    (s.storeOp = none → ∀ page, exec (.storePageDone page) s = .next s) ∧
    (∀ l, (s.leg l).pendingOn = none → exec (.deadTimeTurnOn l) s = .next s) ∧
    (∀ k, (s.port k).selLow = true → exec (.transferStart k) s = .next s) ∧
    (∀ d : DriveLink, (s.port d.toLink).selLow = false →
      exec (.driveCommandTelegram d) s = .next s) ∧
    ((s.port .s).selLow = false → exec .safetyTelegram s = .next s)

/-! ### Reset and start-up -/

/-- R3: a device reset, at power-up or by RST low, sets every slot record to the values of its table; a
link reset of a drive link leaves the slot table as it is. -/
def Obligations.DeviceResetSetsSlots : Prop :=
  (∀ i, (State.reset.slot i).AfterReset) ∧
  (∀ s : State, ∃ t : State, exec .deviceReset s = .next t ∧ ∀ i, (t.slot i).AfterReset) ∧
  (∀ (s : State) (d : DriveLink), s.agenda = [.linkReset d.toLink] →
    (s.port d.toLink).resetCount = 200 →
    ∃ t : State, exec (.linkReset d.toLink) s = .next t ∧ ∀ i, t.slot i = s.slot i)

/-- After a device reset every gate is off and every register stands at its reset value (R55, R71, R91,
R99, R116, R133, R151, R174, R177, R178), and the working image holds the defaults of R179; the nonvolatile store is kept. The model's choices among the
values: what the spec gives no value for (log 6), an empty shadow without a value (log 29), the select
levels (log 9), the store's pages (log 10) and the waiting commands (log 1). -/
def Obligations.DeviceResetDarkensPart : Prop :=
  ∀ s : State, ∃ t : State, exec .deviceReset s = .next t ∧
    (∀ l, t.leg l =
      { func := .unused, drive := .off, active := none, shadow := none, target := .none
        pendingOn := none, gh := false, gl := false, window := [], runLen := 0, lastBit := none
        sample := 0, offset := 0, fastValue := 0, ocCount := 0, drdyLast := none, ready := false }) ∧
    (∀ g, t.group g =
      { periodStart := 0, lastMck := 0, ones := 0, runLen := 0, lastBit := none, temp := 0
        tempRead := false } ∧ t.carrierValue g = 0) ∧
    (∀ i, t.legsOff i = true ∧ (t.slot i).AfterReset ∧
      (t.slot i).storedPerm = .off ∧ (t.slot i).storedLimit = 0 ∧ (t.slot i).stopLoaded = false ∧
      (t.slot i).acc = ⟨0, 0, 0, 0⟩ ∧ (t.slot i).handed = (0, 0) ∧
      (t.slot i).marks = ⟨false, false, false⟩ ∧ (t.slot i).reported = ⟨false, false, false⟩ ∧
      (t.slot i).cal = none ∧
      (t.slot i).check = ⟨0, false, Vector.replicate 3 0, Vector.replicate 3 false⟩) ∧
    t.dc = { window := [], vdc := 0, uv := true, ov := false, chopper := false, kr := 32768 } ∧
    t.cyc =
      { lastSample := none, level := false, number := 0#16, refInstant := 0, firstMade := false
        genActive := false } ∧
    t.safety =
      { lastAlive := none, freshSeen := false, expectedSig := 0#16, freshness := 0
        repeatMark := false, mismatch := false, toffLast := none, toffHigh := false, errCode := 0 } ∧
    t.globalSet = 0x0003#16 ∧ t.fltLow = true ∧
    (∀ k, t.port k =
      { selLow := (s.port k).selLow, rx := .idle, bitCount := 0, bytes := [], cur := 0#8
        txBytes := [], txPos := 0, sdo := false, snapshot := none, resetCount := 0
        clockSeen := false, failed := false }) ∧
    (∀ d, t.drive d =
      { store := none, queue := [], response := ⟨0#8, 0#8, 0#8, 0#8, 0#16, 0#16⟩
        errs := ⟨false, false, false, false, false, false⟩, seqEcho := 0#8, hold := .free, miss := 0
        holdMark := false, entryIgnored := [], curIgnored := [] }) ∧
    t.mode = .reset ∧ t.image = Image.default ∧
    (Image.default.toList.take 27).map BitVec.toNat =
      [8000, 1024, 12800, 23040, 23680, 24320, 25600, 680, 800, 3125, 3125, 3125, 3125, 100, 100, 100,
        100, 50, 50, 50, 50, 500, 3, 8, 512, 0, 0] ∧
    (∀ n : Fin 256, 27 ≤ n.val ∧ n.val < 56 ∨ 184 ≤ n.val ∧ n.val < 255 → t.image[n] = 0#16) ∧
    (∀ m : SlotId, (List.finRange 16).map (fun j => (t.image[56 + 16 * m.val + j.val]'(by omega)).toNat) =
      [256, 256, 0, 0, 30146, 0, 0, 0, 32767, 2, 1024, 4, 2048, 0, 200, 255]) ∧
    t.image[255] = 0x3E7D#16 ∧ t.signature = 0#16 ∧ t.imageBad = false ∧
    t.storeOp = none ∧ t.nv = s.nv ∧ t.loadPage = 0 ∧
    t.loadBuf = Vector.replicate 8 (Vector.replicate 32 0#16) ∧
    t.now = 0 ∧ t.lastFast = 0 ∧ t.lastVdc = 0 ∧ t.lastTemp = 0 ∧ t.agenda = [] ∧
    t.pending = s.pending

/-- R177, R178: the release of RST moves the part from RESET to LOADING, every instant being counted from
it (R116); in LOADING one page after another, page 0 first, comes from the nonvolatile store into the
load buffer, one every 250 µs. That page 0 comes 250 µs after the release, that a page read late comes at
the present instant, and that after page 7 a read has no effect are the model's choices (logs 13, 3
and 2). Nothing else changes. -/
def Obligations.LoadingReadsPages : Prop :=
  ∀ s : State,
    (s.mode = .reset →
      exec .rstReleased s =
        .next { s with mode := .loading, now := 0, cyc := { s.cyc with refInstant := 0 } }) ∧
    (s.mode = .loading → s.agenda = [] → ∀ h : s.loadPage < 8,
      exec .loadPageRead s =
        .next { s.atCount (25000 * (s.loadPage + 1)) with
          loadBuf := s.loadBuf.set s.loadPage (s.nv.pages[s.loadPage]'h) h
          loadPage := s.loadPage + 1 }) ∧
    (s.mode = .loading → 8 ≤ s.loadPage → exec .loadPageRead s = .next s)

/-- R178, R54, R67, R2, R58, R180, R136, R138: load complete, 2 ms after the release of RST (taken late, at the
present instant: the model's choice, log 3). The image in the load buffer is good when the completion mark is
set, its CRC fits, every parameter lies in its range or code set and every check of R182 passes; with it the
part enters OPERATE, each slot's leg set, group and partner derived by R2. With a bad one the working image
keeps what it held, IMAGE_BAD is set and the part enters SETUP, where every effective permission is OFF.
Either way the signature of R180 is formed and compared once a fresh telegram has been seen, with
SIGNATURE_MISMATCH set when it differs, every leg takes its function and every permission is formed afresh.
While no slot is active, as in LOADING none is (R3), nothing else happens to a leg: a CHOPPER leg takes the
chopper state, its high side on after the dead time, and every other leg stays off. -/
def Obligations.LoadCompleteJudgesImage : Prop :=
  ∀ s : State, s.mode = .loading → s.loadPage = 8 → s.agenda = [] →
    let img := imageOfPages s.loadBuf
    let good : Prop := s.nv.mark = true ∧ img.IsGood
    ∃ t : State, exec .loadComplete s = .next t ∧ t.now = max s.now 200000 ∧
      t.signature = t.image.signed ∧
      (∀ l, (t.leg l).func = legFuncOf t.image[32 + l.val]) ∧
      ((∀ i, (s.slot i).state.isActive = false) → ∀ l,
        t.leg l = (s.leg l).tookEntry (legFuncOf t.image[32 + l.val]) (t.image.dt (groupOf l)) t.now
          s.dc.chopper) ∧
      (∀ i, (t.slot i).perm = (t.formPermission i).1) ∧
      t.safety = { s.safety with
        mismatch := if s.safety.freshSeen then decide (s.safety.expectedSig ≠ t.signature)
          else s.safety.mismatch } ∧
      (let mismatched : Word :=
        if s.safety.freshSeen = true ∧ s.safety.expectedSig ≠ t.signature then 0x0020#16 else 0#16
      (good → t.globalSet = s.globalSet ||| mismatched) ∧
      (¬good → t.globalSet = s.globalSet ||| 0x0040#16 ||| mismatched)) ∧
      (good → t.mode = .operate ∧ t.image = img ∧ t.imageBad = s.imageBad ∧
        (∀ i, img.Derives i (t.slot i)) ∧ (∀ g, (t.group g).periodStart = t.now)) ∧
      (¬good → t.mode = .setup ∧ t.image = s.image ∧ t.imageBad = true ∧ t.groups = s.groups ∧
        (∀ i, (t.slot i).seats = (s.slot i).seats ∧ (t.slot i).group = (s.slot i).group ∧
          (t.slot i).partner = (s.slot i).partner ∧ (t.slot i).perm = .off)) ∧
      t.nv = s.nv ∧ t.dc = s.dc ∧ t.cyc = s.cyc ∧ t.drives = s.drives ∧ t.ports = s.ports

/-- R183, R170: a page that verifies is followed by the next; page 7 sets the completion mark and the
STORE completes DONE with the image CRC; a page that fails to verify ends it STORE_FAILED. What the page
then holds is the read-back (log 10). -/
def Obligations.PageDoneAdvancesStore : Prop :=
  ∀ (s : State) (op : StoreOp) (readBack : Page) (r : Request) (rest : List Request),
    s.storeOp = some op → (s.drive op.link).queue = r :: rest →
    let nv : NvStore := { s.nv with pages := s.nv.pages.set op.page readBack }
    let final : Response → DriveRec := fun a =>
      { s.drive op.link with queue := rest, response := a, hold := .reporting }
    (readBack ≠ op.copy.page op.page →
      exec (.storePageDone readBack) s =
        .next (({ s with nv := nv, storeOp := none }).setDrive op.link
          (final ⟨r.kind, r.tag, 19#8, r.target, natWord op.page.val, 0#16⟩))) ∧
    (readBack = op.copy.page op.page → ∀ h : op.page.val < 7,
      exec (.storePageDone readBack) s =
        .next { s with nv := nv, storeOp := some { op with page := ⟨op.page.val + 1, by omega⟩ } }) ∧
    (readBack = op.copy.page op.page → op.page.val = 7 →
      exec (.storePageDone readBack) s =
        .next (({ s with
            nv := { nv with mark := true }, imageBad := false, storeOp := none }).setDrive op.link
          (final ⟨r.kind, r.tag, 1#8, r.target, op.copy[255], 0#16⟩)))

/-! ### Fast sample events and what they owe -/

/-- R76, R77, R79, R117, R144, R173: a fast sample event samples every line, and leaves the sampling of the
legs and the works that have fallen due, in the order given as far as it is open (logs 3 to 5). An
accepted rising edge of CYC, outside the early window, owes the cycle event: its numbering, the end of
internal generation and all its works (R118, R120). The
sampling of the legs forms each fast value, steps each overcurrent count and filters each driver-ready
level, and changes nothing else. -/
def Obligations.FastSampleTakesSamples : Prop :=
  (∀ (s : State) (pins : FastPins) (order : List Work), s.mode ≠ .reset → s.agenda = [] →
    ∃ u : State,
      let due := u.fastWorks s pins
      let edge : Prop := s.cyc.level = false ∧ u.cyc.level = true ∧
        (s.cyc.firstMade = false ∨ 50 * s.image.tCyc ≤ u.now - s.cyc.refInstant)
      exec (.fastSampleEvent pins order) s = u.thenWorks (arrange order due) ∧
      (∀ w, w ∈ arrange order due ↔ w ∈ due) ∧ OrderKept (arrange order due) ∧
      (∀ w, w = .cycleEdge ∨ w = .generation false ∨ w ∈ u.cycleWorks → (w ∈ due ↔ edge)) ∧
      Work.legSamples pins.drdy ∈ due ∧
      (∀ high, Work.toffAccept high ∈ due ↔
        pins.toff = high ∧ s.safety.toffLast = some high ∧ s.safety.toffHigh ≠ high) ∧
      (∀ l, (Work.overcurrent l ∈ due ↔ (s.slotOfLeg l).isSome = true) ∧
        (Work.streamNotice l ∈ due ↔ (s.slotOfLeg l).isSome = true) ∧
        (Work.driverNotice l ∈ due ↔ (s.slotOfLeg l).isSome = true)) ∧
      (∀ k, Work.linkReset k ∈ due ↔ (u.port k).resetCount = 200) ∧
      u.now = nextInstant 100 s.lastFast s.now ∧ u.lastFast = u.now ∧
      u.cyc = { s.cyc with
        level := if s.cyc.lastSample = some pins.cyc then pins.cyc else s.cyc.level
        lastSample := some pins.cyc } ∧
      u.safety = { s.safety with toffLast := some pins.toff } ∧
      (∀ k, u.port k =
        { s.port k with
          clockSeen := false
          resetCount :=
            if (s.port k).selLow = true ∧
                (match k with | .a => pins.asdi | .b => pins.bsdi | .s => pins.ssdi) = true ∧
                (s.port k).clockSeen = false ∧ (s.port k).rx ≠ .waitDeselect then
              (s.port k).resetCount + 1
            else 0 }) ∧
      { u with lastFast := s.lastFast, cyc := s.cyc, safety := s.safety, ports := s.ports } =
        s.atCount u.now) ∧
  (∀ (s : State) (drdy : BitVec 24), ∃ t : State, perform (.legSamples drdy) s = t ∧
    (∀ l, t.leg l =
      { s.leg l with
        fastValue := sat16 ((s.leg l).fastRaw - (s.leg l).offset)
        ocCount :=
          match s.slotOfLeg l with
          | none => 0
          | some i =>
            if s.image.ioc i < (sat16 ((s.leg l).fastRaw - (s.leg l).offset)).natAbs then
              min ((s.leg l).ocCount + 1) (s.image.ocN i)
            else 0
        ready :=
          if (s.leg l).drdyLast = some (drdy.getLsbD l.val) then drdy.getLsbD l.val
          else (s.leg l).ready
        drdyLast := some (drdy.getLsbD l.val) }) ∧
    { t with legs := s.legs } = s)

/-- R118, R119, R120: an accepted rising edge is a cycle event when it is the first since reset or comes
T_CYC/2 or more after the reference instant, and only then does the sample event owe one, with the end of
internal generation and every work of a cycle event. Whatever order is asked for, the orders that the
rules fix are kept (R76, R104, R118, R129, R142, R169, R173). -/
def Obligations.EdgeOwesCycleEvent : Prop :=
  ∀ (s p : State) (pins : FastPins),
    let counts : Prop := p.cyc.level = false ∧ s.cyc.level = true ∧
      (s.cyc.firstMade = false ∨ 50 * s.image.tCyc ≤ s.now - s.cyc.refInstant)
    (Work.cycleEdge ∈ s.fastWorks p pins ↔ counts) ∧
    (Work.generation false ∈ s.fastWorks p pins ↔ counts) ∧
    Work.generation true ∉ s.fastWorks p pins ∧
    (∀ w ∈ s.cycleWorks, w ∈ s.fastWorks p pins ↔ counts) ∧
    ∀ order, OrderKept (arrange order (s.fastWorks p pins))

/-- R144, R145, R65, R13: TOFF accepted LOW turns off every PHASE and FORCED leg, its active compare none and
its shadow empty, and every leg of an active slot's leg set, moves every active slot
to OFF_HELD with its setpoint cleared and its angle kept, and leaves every other slot and every other leg
as they are. R146, R15: TOFF accepted HIGH moves to CLAIMED every slot
in OFF_HELD whose effective permission is ALLOW or LIMIT. Nothing else changes. -/
def Obligations.ToffLowTakesTorque : Prop :=
  ∀ s : State,
    (∃ t, t = perform (.toffAccept false) s ∧
      t.safety = { s.safety with toffHigh := false } ∧
      (∀ i, (s.slot i).state.isActive = true →
        t.slot i = { (s.slot i).leave .offHeld with idW := 0, iqW := 0 }) ∧
      (∀ i, (s.slot i).state.isActive = false → t.slot i = s.slot i) ∧
      (∀ l, (s.leg l).func.heldByToff = true ∨
          (∃ i, (s.slot i).state.isActive = true ∧
            ((s.slot i).seats.any fun x => x.leg = l) = true) →
        t.leg l =
          { s.leg l with
            drive := .off, target := .none, gh := false, gl := false, pendingOn := none
            active := none, shadow := none }) ∧
      (∀ l, (s.leg l).func.heldByToff = false →
        (∀ i, (s.slot i).state.isActive = true →
          (s.slot i).seats.all (fun x => x.leg ≠ l) = true) →
        t.leg l = s.leg l) ∧
      { t with safety := s.safety, slots := s.slots, legs := s.legs } = s) ∧
    (∃ t, t = perform (.toffAccept true) s ∧
      t.safety = { s.safety with toffHigh := true } ∧
      (∀ i, t.slot i =
        if (s.slot i).state = .offHeld ∧
            ((s.slot i).perm = .allow ∨ (s.slot i).perm = .limit) then
          { s.slot i with state := .claimed }
        else s.slot i) ∧
      { t with safety := s.safety, slots := s.slots } = s)

/-- R16, R153: a notice for an active slot records its cause, with the first-fault record when the set
was empty, moves the slot to FAULT with its legs off, integrators and stop counter 0 and its calibration
abandoned; an active partner goes to FAULT in the same way under PARTNER; nothing else changes. For any
other slot the notice changes nothing. -/
def Obligations.NoticeFaultsSlotAndPartner : Prop :=
  ∀ (s : State) (i : SlotId) (c : Cause) (leg : Option LegId), (s.slot i).partner ≠ some i →
    let faulted : Slot → Cause → Option LegId → Slot := fun x c leg =>
      { x.leave .fault with
        causes := x.causes ||| c.bit
        firstFault := if x.causes = 0#16 then some ⟨c, leg, s.cyc.number⟩ else x.firstFault }
    let withIt : SlotId → Prop := fun j =>
      (s.slot i).partner = some j ∧ (s.slot j).state.isActive = true
    let t := s.takeNotice i c leg
    ((s.slot i).state.isActive = false → t = s) ∧
    ((s.slot i).state.isActive = true →
      t.slot i = faulted (s.slot i) c leg ∧
      (∀ j, withIt j → t.slot j = faulted (s.slot j) .partner none) ∧
      (∀ j, j ≠ i → ¬withIt j → t.slot j = s.slot j) ∧
      (∀ l, (((s.slot i).seats.any fun x => x.leg = l) = true ∨
          ∃ j, withIt j ∧ ((s.slot j).seats.any fun x => x.leg = l) = true) →
        t.leg l = (s.leg l).turnOff) ∧
      (∀ l, ((s.slot i).seats.any fun x => x.leg = l) = false →
        (∀ j, withIt j → ((s.slot j).seats.any fun x => x.leg = l) = false) → t.leg l = s.leg l) ∧
      { t with slots := s.slots, legs := s.legs } = s)

/-- R77, R85, R86, R16: OVERCURRENT, CURRENT_SUM and LEG_IMBALANCE, when their count stands at its limit
on an active slot, fault that slot under their cause, with the leg they name; at any other count they
change nothing. R78, R80: so does a STREAM
notice for a leg whose stream is stuck, and a DRIVER notice for a leg that stands NOT_READY; a leg whose
source is not present, or that belongs to no slot's leg set, raises none. -/
def Obligations.CountedNoticesFault : Prop :=
  ∀ (s : State) (i : SlotId) (ws : List Work),
    (∀ l, s.agenda = .overcurrent l :: ws → s.slotOfLeg l = some i →
      (s.slot i).state.isActive = true → (s.leg l).ocCount = s.image.ocN i →
      exec (.overcurrent l) s = (s.takeNotice i .overcurrent (some l)).thenWorks ws) ∧
    (s.agenda = .currentSum i :: ws → (s.slot i).state = .run ∨ (s.slot i).state = .stopping →
      (s.slot i).check.sumCount = s.image.isumN i →
      exec (.currentSum i) s = (s.takeNotice i .currentSum none).thenWorks ws) ∧
    (∀ ph, s.agenda = .legImbalance i ph :: ws →
      (s.slot i).state = .run ∨ (s.slot i).state = .stopping →
      (s.slot i).check.imbCount[phaseIndex ph] = s.image.isumN i →
      exec (.legImbalance i ph) s =
        (s.takeNotice i .legImbalance ((s.slot i).legAt ph 0)).thenWorks ws) ∧
    (∀ l, s.slotOfLeg l = some i →
      (128 ≤ (s.leg l).runLen → perform (.streamNotice l) s = s.takeNotice i .stream (some l)) ∧
      ((s.leg l).runLen < 128 → perform (.streamNotice l) s = s) ∧
      ((s.leg l).ready = false → perform (.driverNotice l) s = s.takeNotice i .driver (some l)) ∧
      ((s.leg l).ready = true → perform (.driverNotice l) s = s)) ∧
    (∀ l, s.agenda = .overcurrent l :: ws → s.slotOfLeg l = some i →
      (s.leg l).ocCount ≠ s.image.ocN i →
      exec (.overcurrent l) s = .next s ∧ perform (.overcurrent l) s = s) ∧
    (s.agenda = .currentSum i :: ws → (s.slot i).check.sumCount ≠ s.image.isumN i →
      exec (.currentSum i) s = .next s ∧ perform (.currentSum i) s = s) ∧
    (∀ ph, s.agenda = .legImbalance i ph :: ws →
      (s.slot i).check.imbCount[phaseIndex ph] ≠ s.image.isumN i →
      exec (.legImbalance i ph) s = .next s ∧ perform (.legImbalance i ph) s = s) ∧
    (∀ l, s.slotOfLeg l = none →
      perform (.streamNotice l) s = s ∧ perform (.driverNotice l) s = s)

/-! ### Cycle events -/

/-- R119, R118: 1.5·T_CYC after the reference instant, with generation INACTIVE, the part makes a cycle
event of its own and numbers it, and owes at it that generation becomes ACTIVE with CYC_LOST set; T_CYC
after it, with generation ACTIVE, it makes the next. Both leave the works of a cycle event, each once: the
requests in SETUP and OPERATE, the staged values, intake and miss counters, the cycle close, the
allocation, the freshness step, the countdown, the stop expiries, the copies of the cause sets and the
snapshots, in an order that keeps R104, R129, R142 and R169. An event
taken late comes at the present instant, and the order operand decides what R158 and R162 leave open (the
model's choices, logs 3 to 5); so does one that a T_CYC lowered at load complete puts before the present
instant (the model's choice, log 34). -/
def Obligations.SilentLineMakesCycleEvents : Prop :=
  ∀ (s : State) (order : List Work), s.mode ≠ .reset → s.agenda = [] →
    (s.cyc.genActive = false →
      let v := s.atCount (s.cyc.refInstant + 150 * s.image.tCyc)
      let u := { v with
        cyc := { s.cyc with number := s.cyc.number + 1, refInstant := v.now, firstMade := true } }
      let ws := arrange order (.generation true :: u.cycleWorks)
      exec (.cycLossTimeout order) s = u.thenWorks ws ∧ OrderKept ws ∧
        (∀ w, w ∈ ws ↔ w = .generation true ∨ w ∈ u.cycleWorks)) ∧
    (s.cyc.genActive = true →
      let v := s.atCount (s.cyc.refInstant + 100 * s.image.tCyc)
      let u := { v with
        cyc := { s.cyc with number := s.cyc.number + 1, refInstant := v.now, firstMade := true } }
      let ws := arrange order u.cycleWorks
      exec (.internalCycleEvent order) s = u.thenWorks ws ∧ OrderKept ws ∧
        (∀ w, w ∈ ws ↔ w ∈ u.cycleWorks)) ∧
    (∀ (u : State) (w : Work), w ∈ u.cycleWorks ↔
      (∃ d, w = .serve d ∧ (u.mode = .setup ∨ u.mode = .operate)) ∨
      (∃ i, w = .applyStaged i ∧ ∃ j : Fin 7, (u.slot i).staged[j] ≠ none) ∨
      (∃ d, w = .intake d ∨ w = .stale d ∨ w = .snapshot d) ∨
      (∃ i, w = .stopExpiry i ∨ w = .faultCopy i) ∨
      w ∈ [Work.closeCycle, .allocate, .freshness, .countdown, .safetySnapshot]) ∧
    perform (.generation true) s =
      { s with cyc := { s.cyc with genActive := true }, globalSet := s.globalSet ||| 0x0008#16 } ∧
    perform (.generation false) s = { s with cyc := { s.cyc with genActive := false } }

/-- The works of a cycle event that no command takes: numbering from an edge (R118), waiting tuning
values, owed only by a slot that has one (R22), the cycle close (R52), a freshness step that stays below
SAFE_TMO, and one that reaches it or stays there: SAFETY_LOST is set and the permissions are formed afresh
(R137, R140), so that with the flag set and every permission standing as it is formed the counter alone is
touched; the countdown (R142) and the copy of a cause set (R156). Each changes what its rule says
and nothing else. -/
def Obligations.CycleWorksTakeEffect : Prop :=
  ∀ s : State,
    perform .cycleEdge s =
      { s with cyc := { s.cyc with
          number := s.cyc.number + 1, refInstant := s.now, firstMade := true } } ∧
    (∀ i, Work.applyStaged i ∈ s.cycleWorks ↔ ∃ j : Fin 7, (s.slot i).staged[j] ≠ none) ∧
    (∀ i,
      let t := perform (.applyStaged i) s
      (∀ j, t.slot j =
        if j = i then { s.slot i with staged := Vector.replicate 7 none } else s.slot j) ∧
      (∀ j : Fin 7, t.image[56 + 16 * i.val + j.val]'(by omega) =
        ((s.slot i).staged[j]).getD (s.image[56 + 16 * i.val + j.val]'(by omega))) ∧
      (∀ (n : Nat) (h : n < 256), (∀ j : Fin 7, n ≠ 56 + 16 * i.val + j.val) →
        t.image[n] = s.image[n]) ∧
      { t with slots := s.slots, image := s.image } = s) ∧
    (∃ t, t = perform .closeCycle s ∧
      (∀ i,
        let x := s.slot i
        t.slot i = { x with
          handed := (x.acc.sumJ, x.acc.n)
          avgD := if x.acc.n = 0 then 0 else x.acc.sumD.tdiv x.acc.n
          avgQ := if x.acc.n = 0 then 0 else x.acc.sumQ.tdiv x.acc.n
          reported := x.marks
          acc := ⟨0, 0, 0, 0⟩
          marks := ⟨false, false, false⟩ }) ∧
      { t with slots := s.slots } = s) ∧
    (s.safety.freshness + 1 < s.image.safeTmo →
      perform .freshness s =
        { s with safety := { s.safety with freshness := s.safety.freshness + 1 } }) ∧
    (s.image.safeTmo ≤ s.safety.freshness + 1 →
      let u := { s with safety := { s.safety with freshness := s.image.safeTmo } }
      (∃ t, t = perform .freshness s ∧ t.safety = u.safety ∧
        t.globalSet = s.globalSet ||| 0x0010#16 ∧
        (∀ i, ((t.slot i).perm, (t.slot i).lPerm) = u.formPermission i) ∧
        (∀ i, (s.slot i).perm = (u.formPermission i).1 →
          t.slot i = { s.slot i with lPerm := (u.formPermission i).2 }) ∧
        { t with safety := s.safety, globalSet := s.globalSet, slots := s.slots, legs := s.legs } = s) ∧
      (s.globalSet &&& 0x0010#16 = 0x0010#16 →
        (∀ i, ((s.slot i).perm, (s.slot i).lPerm) = u.formPermission i) →
        perform .freshness s = u)) ∧
    (∃ t, t = perform .countdown s ∧
      (∀ i, t.slot i =
        if (s.slot i).state = .stopping ∧ (s.slot i).stopLoaded = false then
          { s.slot i with stopCount := (s.slot i).stopCount - 1 }
        else s.slot i) ∧
      { t with slots := s.slots } = s) ∧
    (∀ i, perform (.faultCopy i) s = s.setSlot i { s.slot i with snapCauses := (s.slot i).causes })

/-- R129, R16, R153: with the miss counter of a link at HOLD_MAX, SETPOINT_STALE takes every active slot the
link owns to FAULT under SETPOINT_STALE, its integrators 0 and its legs off, an active partner under
PARTNER, and leaves every slot that is not active, or that neither the link owns nor pairs with an active
slot of its own, as it is. A leg of a slot that was active and is taken to FAULT is turned off, a leg of no
such slot stays as it is, and nothing else changes. -/
def Obligations.StaleFaultsOwnedSlots : Prop :=
  ∀ (s : State) (d : DriveLink) (order : List SlotId) (ws : List Work),
    s.agenda = .stale d :: ws → (s.drive d).miss = s.image.holdMax →
    (∃ i, (s.slot i).owner = some d ∧ (s.slot i).state.isActive = true) →
    ∃ t : State, exec (.setpointStale d order) s = t.thenWorks ws ∧
      s.Noticed .setpointStale (fun i => (s.slot i).owner = some d) t ∧
      (∀ i, (s.slot i).state.isActive = false → t.slot i = s.slot i) ∧
      (∀ i, (s.slot i).owner ≠ some d →
        (∀ j, (s.slot j).owner = some d → (s.slot j).state.isActive = true →
          (s.slot j).partner ≠ some i) → t.slot i = s.slot i) ∧
      (∀ i l, (s.slot i).state.isActive = true → (t.slot i).state = .fault →
        ((s.slot i).seats.any fun x => x.leg = l) = true →
        t.leg l =
          { s.leg l with
            drive := .off, target := .none, gh := false, gl := false, pendingOn := none
            active := none, shadow := none }) ∧
      (∀ l, (∀ i, (s.slot i).state.isActive = true → (t.slot i).state = .fault →
        ((s.slot i).seats.any fun x => x.leg = l) = false) → t.leg l = s.leg l) ∧
      { t with slots := s.slots, legs := s.legs } = s

/-- R137, R138, R140, R12, R141: at the freshness step that brings the counter to SAFE_TMO, SAFETY_LOST is
set and no slot keeps ALLOW or LIMIT; a slot in RUN that had either and is now given STOP goes to STOPPING
with its stop counter loaded, and stays out of this event's countdown. -/
def Obligations.SafetyTimeoutStopsSlots : Prop :=
  ∀ (s : State) (ws : List Work), s.agenda = .freshness :: ws →
    s.image.safeTmo ≤ s.safety.freshness + 1 →
    (s.globalSet &&& 0x0010#16 = 0#16 ∨ ∃ i, (s.slot i).perm.permits = true) →
    ∃ t : State, exec .safetyTimeout s = t.thenWorks ws ∧ t.globalSet = s.globalSet ||| 0x0010#16 ∧
      t.safety = { s.safety with freshness := s.image.safeTmo } ∧
      (∀ i, (t.slot i).perm = (t.formPermission i).1 ∧ (t.slot i).lPerm = 0 ∧
        (t.slot i).perm.permits = false) ∧
      (∀ i, (s.slot i).state = .run → (s.slot i).perm.permits = true → (t.slot i).perm = .stop →
        (t.slot i).state = .stopping ∧ (t.slot i).stopCount = s.image.stopCycles (s.leadOf i) ∧
          (t.slot i).stopLoaded = true ∧ (t.slot i).intQ = (s.slot i).intQ) ∧
      t.dc = s.dc ∧ t.cyc = s.cyc ∧ t.drives = s.drives ∧ t.mode = s.mode ∧ t.image = s.image

/-- R14, R19: a slot in STOPPING whose counter stands at 0 goes to OFF_HELD with its legs off and its
integrators 0, and a partner that has run out with it goes too; the setpoint is kept. -/
def Obligations.StopExpiryHoldsSlotOff : Prop :=
  ∀ (s : State) (i : SlotId) (ws : List Work), s.agenda = .stopExpiry i :: ws →
    (s.slot i).state = .stopping → (s.slot i).stopCount = 0 →
    ((s.slot i).partner = none →
      exec (.stopCounterExpiry i) s = (s.haltSlot i .offHeld).thenWorks ws) ∧
    (∀ p, (s.slot i).partner = some p → p ≠ i → (s.slot p).state = .stopping →
      (s.slot p).stopCount = 0 →
      exec (.stopCounterExpiry i) s =
        ((s.haltSlot i .offHeld).haltSlot p .offHeld).thenWorks ws) ∧
    (∀ p, (s.slot i).partner = some p →
      p = i ∨ (s.slot p).state ≠ .stopping ∨ (s.slot p).stopCount ≠ 0 →
      exec (.stopCounterExpiry i) s = (s.haltSlot i .offHeld).thenWorks ws)

/-- R17, R28, R64, R84: a slot that leaves the active states, in whichever way (the model's reading of the
empty cells of R17's table, log 25), keeps everything but its state, integrators, stop counter,
calibration and period checks, its legs are turned off with their shadows emptied, and no other slot, leg
or record of the part changes. -/
def Obligations.HaltTurnsLegsOff : Prop :=
  ∀ (s : State) (i : SlotId) (st : SlotState),
    let t := s.haltSlot i st
    t.slot i = { s.slot i with
      state := st, intD := 0, intQ := 0, stopCount := 0, stopLoaded := false, cal := none
      check := ⟨0, false, Vector.replicate 3 0, Vector.replicate 3 false⟩ } ∧
    (∀ j, j ≠ i → t.slot j = s.slot j) ∧
    (∀ l, t.leg l =
      if ((s.slot i).seats.any fun x => x.leg = l) = true then
        { s.leg l with
          drive := .off, target := .none, gh := false, gl := false, pendingOn := none
          active := none, shadow := none }
      else s.leg l) ∧
    { t with slots := s.slots, legs := s.legs } = s

/-- R128, R124, R125, R126: intake of a link whose telegram has not been taken applies each entry of a
slot it owns, CUR of a follower aside, echoes the sequence, clears the miss counter and HOLD, and forms
the sets of ignored entries and ignored CUR fields; the link's queue, response field, error marks and hold
stay as they are. A link with nothing to take counts a miss up to HOLD_MAX and empties both sets. -/
def Obligations.IntakeTakesTelegram : Prop :=
  ∀ (s : State) (d : DriveLink),
    let t := perform (.intake d) s
    (∀ tel, (s.drive d).store = some ⟨tel, false⟩ → (tel.entries.map Entry.slot).Nodup →
      t.drive d = { s.drive d with
        store := some ⟨tel, true⟩, seqEcho := tel.seq, miss := 0, holdMark := false
        entryIgnored := (t.drive d).entryIgnored, curIgnored := (t.drive d).curIgnored } ∧
      (∀ i, i ∈ (t.drive d).entryIgnored ↔
        i ∈ tel.entries.map Entry.slot ∧ (s.slot i).owner ≠ some d) ∧
      (∀ i, i ∈ (t.drive d).curIgnored ↔
        (∃ e ∈ tel.entries, e.slot = i ∧ e.cur = true) ∧ (s.slot i).owner = some d ∧
          ∃ p, (s.slot i).partner = some p ∧ p < i) ∧
      (∀ e ∈ tel.entries, (s.slot e.slot).owner = some d →
        t.slot e.slot = { s.slot e.slot with
          idW := if e.cur = true ∧ s.isFollower e.slot = false then e.idStar
            else (s.slot e.slot).idW
          iqW := if e.cur = true ∧ s.isFollower e.slot = false then e.iqStar
            else (s.slot e.slot).iqW
          theta := if e.ang then e.theta else (s.slot e.slot).theta
          omega := if e.ang then e.omega else (s.slot e.slot).omega
          anglePresent := e.ang || (s.slot e.slot).anglePresent }) ∧
      (∀ i, (s.slot i).owner ≠ some d ∨ i ∉ tel.entries.map Entry.slot → t.slot i = s.slot i) ∧
      { t with slots := s.slots, drives := s.drives } = s ∧
      (∀ e, e ≠ d → t.drive e = s.drive e)) ∧
    ((s.drive d).store = none ∨ (∃ tel, (s.drive d).store = some ⟨tel, true⟩) →
      t = s.setDrive d { s.drive d with
        miss := min ((s.drive d).miss + 1) s.image.holdMax, holdMark := true
        entryIgnored := [], curIgnored := [] })

/-! ### DC link, temperature, bits -/

/-- R92 to R98, R67: a V_dc sample event, at the next multiple of its period (log 3), forms V_dc, both
conditions, the chopper state and kr from the one sample, sets DC_UV and DC_OV while they hold, makes
every chopper leg follow a change, and faults every active slot while either condition holds: under
DC_UNDERVOLTAGE or DC_OVERVOLTAGE, its legs off and its integrators 0, and under PARTNER when its partner
was taken first (R16, R153). With both conditions at once, which thresholds in order exclude, the
undervoltage comes first (the model's reading, log 20). -/
def Obligations.VdcSampleActs : Prop :=
  ∀ (s : State) (order : List SlotId), s.mode ≠ .reset → s.agenda = [] →
    let v := min (32 * (s.dc.window.count true)) 32767
    ∃ t : State, exec (.vDcSampleEvent order) s = .next t ∧ t.now = nextInstant 2000 s.lastVdc s.now ∧
      t.lastVdc = t.now ∧
      t.dc = { s.dc with
        vdc := v
        uv := decide (v < s.image.vUv)
        ov := decide (s.image.vOv < v)
        chopper := if s.image.vChOn ≤ v then true else if v ≤ s.image.vChOff then false
          else s.dc.chopper
        kr := if s.image.vOv ≤ v then 0 else if v ≤ s.image.vRg then 32768
          else 32768 * (s.image.vOv - v) / (s.image.vOv - s.image.vRg) } ∧
      t.globalSet = s.globalSet ||| (if v < s.image.vUv then 0x0002#16 else 0#16) |||
        (if s.image.vOv < v then 0x0004#16 else 0#16) ∧
      (v < s.image.vUv → s.Noticed .dcUndervoltage (fun _ => True) t) ∧
      (s.image.vUv ≤ v → s.image.vOv < v → s.Noticed .dcOvervoltage (fun _ => True) t) ∧
      (∀ i, (s.slot i).state.isActive = false ∨ ¬(v < s.image.vUv ∨ s.image.vOv < v) →
        (t.slot i).state = (s.slot i).state ∧ (t.slot i).causes = (s.slot i).causes ∧
          (t.slot i).intD = (s.slot i).intD ∧ (t.slot i).intQ = (s.slot i).intQ) ∧
      (∀ l, (s.leg l).func = .chopper →
        (∀ i, (s.slot i).state.isActive = true → (s.slot i).seats.all (fun x => x.leg ≠ l) = true) →
        t.leg l = if s.dc.chopper = t.dc.chopper then s.leg l
          else if t.dc.chopper then
            { (s.leg l).setTarget (s.image.dt (groupOf l)) t.now .high with drive := .high }
          else (s.leg l).turnOff) ∧
      t.safety = s.safety ∧ t.cyc = s.cyc ∧ t.drives = s.drives ∧ t.mode = s.mode ∧
      t.image = s.image

/-- R87 to R90: a temperature sample event, at the next multiple of its period (log 3), reads every group,
sets TEMP_WARN while a group is above T_WARN, and faults every active slot of a group at or above T_TRIP
under MODULE_OVERTEMP, its legs off and its integrators 0, an active partner under PARTNER (R16, R153); a
slot of a cooler group whose partner is of a cooler group too stays as it is. L_temp is 0 before a
group's first sample, and from then on falls from IMAX at T_WARN to 0 at T_TRIP (R88; that it follows a
change of those figures at once is the model's choice, log 30). -/
def Obligations.TempSampleActs : Prop :=
  ∀ (s : State) (order : List SlotId), s.mode ≠ .reset → s.agenda = [] →
    ∃ t : State, exec (.tempSampleEvent order) s = .next t ∧
      t.now = nextInstant 100000 s.lastTemp s.now ∧ t.lastTemp = t.now ∧
      (∀ g, t.group g = { s.group g with
        temp := if 128 ≤ (s.group g).runLen then s.image.tTrip
          else clampI (4 * ((s.group g).ones : Int) / 25 - 600) (-400) 2400
        tempRead := true
        ones := 0 }) ∧
      ((∃ g, s.image.tWarn < (t.group g).temp) → t.globalSet = s.globalSet ||| 0x0080#16) ∧
      ((∀ g, (t.group g).temp ≤ s.image.tWarn) → t.globalSet = s.globalSet) ∧
      s.Noticed .moduleOvertemp
        (fun i => ∃ g, (s.slot i).group = some g ∧ s.image.tTrip ≤ (t.group g).temp) t ∧
      (∀ i, (s.slot i).state.isActive = false → (t.slot i).state = (s.slot i).state ∧
        (t.slot i).causes = (s.slot i).causes) ∧
      ((∀ g, (t.group g).temp < s.image.tTrip) → ∀ i, (t.slot i).state = (s.slot i).state ∧
        (t.slot i).causes = (s.slot i).causes) ∧
      (∀ i, (∀ j, j = i ∨ (s.slot j).partner = some i →
          ∀ g, (s.slot j).group = some g → (t.group g).temp < s.image.tTrip) →
        t.slot i = (s.atCount t.now).slot i) ∧
      (∀ i g, (s.slot i).group = some g →
        ((s.group g).tempRead = false → s.lTemp i = 0) ∧
        t.lTemp i =
          (let T := (t.group g).temp
          if T ≤ s.image.tWarn then (s.image.iMax i : Int)
          else if T < s.image.tTrip then
            (s.image.iMax i : Int) * (s.image.tTrip - T) / (s.image.tTrip - s.image.tWarn)
          else 0)) ∧
      t.dc = s.dc ∧ t.safety = s.safety ∧ t.cyc = s.cyc ∧ t.drives = s.drives ∧ t.mode = s.mode

/-- R72, R73, R87, R92: a rising edge of MCKg, at the next multiple of its period (log 3), takes one bit
into each of the group's six legs and its temperature record, and at MCK0 one into the V_dc window; every
other leg and group is left alone. The raw values of a leg are the ones less the zeros of its windows,
scaled and saturated. -/
def Obligations.ClockEdgeTakesBits : Prop :=
  ∀ (s : State) (g : GroupId) (ibs : BitVec 6) (tbs vbs : Bool), s.mode ≠ .reset → s.agenda = [] →
    ∃ t : State, exec (.modulatorClockEdge g ibs tbs vbs) s = .next t ∧
      t.now = nextInstant 5 (s.group g).lastMck s.now ∧
      (∀ l, t.leg l =
        if groupOf l = g then
          let bit := ibs.getLsbD (l.val % 6)
          { s.leg l with
            window := (bit :: (s.leg l).window).take 1024
            runLen := if (s.leg l).lastBit = some bit then min ((s.leg l).runLen + 1) 65535 else 1
            lastBit := some bit }
        else s.leg l) ∧
      (∀ h, t.group h =
        if h = g then
          { s.group g with
            lastMck := t.now
            ones := if tbs then (s.group g).ones + 1 else (s.group g).ones
            runLen := if (s.group g).lastBit = some tbs then min ((s.group g).runLen + 1) 65535 else 1
            lastBit := some tbs }
        else s.group h) ∧
      t.dc = (if g = 0 then { s.dc with window := (vbs :: s.dc.window).take 1024 } else s.dc) ∧
      t.safety = s.safety ∧ t.cyc = s.cyc ∧ t.drives = s.drives ∧ t.ports = s.ports ∧
      t.mode = s.mode ∧ t.image = s.image ∧ t.globalSet = s.globalSet ∧
      ∀ l,
        let w := (s.leg l).window
        (s.leg l).raw =
          max (-32768) (min (32 * ((w.count true : Int) - w.count false)) 32767) ∧
        (s.leg l).fastRaw =
          max (-32768) (min (512 * (((w.take 64).count true : Int) - (w.take 64).count false)) 32767)

/-! ### Carriers and legs -/

/-- R57, R60, R74: a period event falls 2·HP counts after the one before (taken late, at the present
instant: log 3); every leg of the group takes its shadow and then its period sample, and the other legs
are left alone. R82, R84 to R86: every slot of the group in RUN or STOPPING is checked on the new samples,
and every calibration record of the group takes its raw values. The works of the event follow: the
computation, CURRENT_SUM and LEG_IMBALANCE of the slots whose counts stand at ISUM_N, and, behind the
computation, the completion of every calibration, of a pair its lead's, with 256 samples (R26, R27, R11). -/
def Obligations.PeriodEventTakesShadows : Prop :=
  ∀ (s : State) (g : GroupId) (order : List Work), s.mode = .operate → s.agenda = [] →
    ∃ u : State,
      let ws := arrange order (u.periodWorks g)
      exec (.periodEvent g order) s = u.thenWorks ws ∧ OrderKept ws ∧
      (∀ w, w ∈ ws ↔
        w = .compute g ∨
        (∃ i, w = .currentSum i ∧ (u.slot i).group = some g ∧
          ((u.slot i).state = .run ∨ (u.slot i).state = .stopping) ∧
          (u.slot i).check.sumCount = s.image.isumN i) ∨
        (∃ i ph, w = .legImbalance i ph ∧ (u.slot i).group = some g ∧
          ((u.slot i).state = .run ∨ (u.slot i).state = .stopping) ∧
          (u.slot i).check.imbCount[phaseIndex ph] = s.image.isumN i) ∨
        (∃ i c, w = .calibrationComplete i ∧ (u.slot i).group = some g ∧
          (u.slot i).state = .calibrating ∧ (u.slot i).cal = some c ∧ 256 ≤ c.count ∧
          ∀ p, (u.slot i).partner = some p → i ≤ p)) ∧
      u.now = max s.now ((s.group g).periodStart + 2 * s.image.hp g) ∧
      u.group g = { s.group g with periodStart := u.now } ∧
      (∀ h, h ≠ g → u.group h = s.group h) ∧
      (∀ l, groupOf l = g → (s.leg l).func.heldByToff = true → (s.leg l).func ≠ .forced →
        (∀ c, (s.leg l).shadow = some c →
          u.leg l = { (s.leg l).setTarget (s.image.dt g) u.now
              (if s.image.hp g ≤ c then .high else .low) with
            drive := .switching, active := some c, shadow := none
            sample := sat16 ((s.leg l).raw - (s.leg l).offset) }) ∧
        ((s.leg l).shadow = none →
          u.leg l = { (s.leg l).setTarget (s.image.dt g) u.now .none with
            drive := .off, active := none, shadow := none
            sample := sat16 ((s.leg l).raw - (s.leg l).offset) })) ∧
      (∀ l, groupOf l = g → ((s.leg l).func.heldByToff = false ∨ (s.leg l).func = .forced) →
        u.leg l = { s.leg l with sample := sat16 ((s.leg l).raw - (s.leg l).offset) }) ∧
      (∀ l, groupOf l ≠ g → u.leg l = s.leg l) ∧
      (∀ i,
        let x := (s.atCount u.now).slot i
        let n := s.image.isumN i
        let step : Nat → Bool → Nat := fun count out =>
          if out then (if count = n then n else count + 1) else 0
        let sumOut : Bool :=
          decide (s.image.isumTol i < ((x.seats.map fun t => (u.leg t.leg).sample).sum).natAbs)
        (x.group ≠ some g → u.slot i = x) ∧
        (x.group = some g →
          ∃ chk : PeriodCheck,
            u.slot i = { x with
              check := if x.state = .run ∨ x.state = .stopping then chk else x.check
              cal := x.cal.map fun c =>
                ⟨c.count + 1, List.zipWith (fun t sum => sum + (s.leg t.leg).raw) x.seats c.sums⟩ } ∧
            chk.sumMark = sumOut ∧ chk.sumCount = step x.check.sumCount sumOut ∧
            ∀ ph,
              (∀ a b, x.legAt ph 0 = some a → x.legAt ph 1 = some b →
                let out : Bool :=
                  decide (s.image.ibalTol i < ((u.leg a).sample - (u.leg b).sample).natAbs)
                chk.imbMark[phaseIndex ph] = out ∧
                chk.imbCount[phaseIndex ph] = step x.check.imbCount[phaseIndex ph] out) ∧
              (x.legAt ph 0 = none ∨ x.legAt ph 1 = none →
                chk.imbMark[phaseIndex ph] = false ∧ chk.imbCount[phaseIndex ph] = 0))) ∧
      { u with now := s.now, slots := s.slots, legs := s.legs, groups := s.groups } = s

/-- R26, R43, R49, R51, R130: the computation of a group loads the shadows of the slots in RUN or
STOPPING with their compare values, stores their new integrators, adds to their sums and marks, advances
the angle of every configured slot of the group by its speed, and changes nothing else. What a computation
gives is stated under The current loop. Its inputs are those of R30: the phase currents of R31, the saturated
sum of paralleled legs, the setpoint of R132, which is 0 until the angles are there and the lead's for a
pair, the lesser scale of a pair, L_perm under LIMIT alone, and the tuning parameters of R32. -/
def Obligations.GroupComputation : Prop :=
  ∀ (s : State) (g : GroupId),
    (∀ i j l, i ≠ j → ((s.slot i).seats.any fun x => x.leg = l) = true →
      ((s.slot j).seats.any fun x => x.leg = l) = false) →
    let t := perform (.compute g) s
    (∀ i, (s.slot i).group = some g → (s.slot i).state.isRunning = true →
      let x := s.slot i
      let o := loopCompute (s.loopInputs g i)
      t.slot i = { x with
        intD := o.intD
        intQ := o.intQ
        acc :=
          { sumJ := x.acc.sumJ + o.j, sumD := x.acc.sumD + o.iD, sumQ := x.acc.sumQ + o.iQ
            n := x.acc.n + 1 }
        marks :=
          { vsat := x.marks.vsat || o.vsat
            tempLimited := x.marks.tempLimited || o.tempLimited
            regenLimited := x.marks.regenLimited || o.regenLimited }
        theta := x.theta + BitVec.ofInt 16 x.omega } ∧
      ∀ l ph, x.phaseOf l = some ph → t.leg l = { s.leg l with shadow := some (o.compare ph) }) ∧
    (∀ i, (s.slot i).group = some g → (s.slot i).state.isRunning = false →
      t.slot i = { s.slot i with
        theta := (s.slot i).theta + BitVec.ofInt 16 (s.slot i).omega }) ∧
    (∀ i, (s.slot i).group ≠ some g → t.slot i = s.slot i) ∧
    (∀ l, (∀ i, (s.slot i).group = some g → (s.slot i).state.isRunning = true →
      (s.slot i).phaseOf l = none) → t.leg l = s.leg l) ∧
    { t with slots := s.slots, legs := s.legs } = s ∧
    (∀ i,
      let x := s.loopInputs g i
      let y := s.slot i
      let current : Phase → Int := fun ph =>
        max (-32768) (min
          (((y.seats.filter fun q => decide (q.phase = ph)).map fun q => (s.leg q.leg).sample).sum) 32767)
      x.ia = current .u ∧ x.ib = current .v ∧ x.ic = current .w ∧
      x.theta = y.theta ∧ x.omega = y.omega ∧
      (y.partner = none →
        (x.idW, x.iqW) = (if y.anglePresent then (y.idW, y.iqW) else (0, 0)) ∧ x.k = y.kScale) ∧
      (∀ p, y.partner = some p →
        let lead := s.slot (if p < i then p else i)
        (x.idW, x.iqW) =
          (if y.anglePresent && (s.slot p).anglePresent then (lead.idW, lead.iqW) else (0, 0)) ∧
        x.k = min y.kScale (s.slot p).kScale) ∧
      x.kr = s.dc.kr ∧ x.vdc = s.dc.vdc ∧ x.vUv = s.image.vUv ∧ x.iMax = s.image.iMax i ∧
      x.lTemp = s.lTemp i ∧ x.lPerm = (if y.perm = .limit then some (y.lPerm : Int) else none) ∧
      [x.kpD, x.kpQ, x.kiD, x.kiQ, x.vlim, x.dtcAmp, x.dtcI] =
        (List.finRange 7).map (fun j => (s.image[56 + 16 * i.val + j.val]'(by omega)).toNat) ∧
      x.intD = y.intD ∧ x.intQ = y.intQ ∧ x.hp = s.image.hp g ∧ x.mp = s.image.mp g)

/-- R11, R75, R82: at the 256th sample, offsets that all lie within ±OFS_MAX are installed and the slot
goes to RUN; with one outside, no offset changes and the slot goes to FAULT under OFFSET with its first
failing leg. A pair completes as one, whichever member the command names: both members go to RUN with the
offsets of both installed, or both go to FAULT, a member whose legs all passed under PARTNER. -/
def Obligations.CalibrationCompletes : Prop :=
  ∀ (s : State) (i : SlotId) (ws : List Work) (c : CalRecord),
    s.agenda = .calibrationComplete i :: ws →
    (s.slot i).state = .calibrating → (s.slot i).cal = some c → 256 ≤ c.count →
    let offs : List (LegId × Int) :=
      List.zipWith (fun t sum => (t.leg, (sum + 128) / 256)) (s.slot i).seats c.sums
    let offsets : SlotId → List (LegId × Int) := fun m =>
      match (s.slot m).cal with
      | some c => List.zipWith (fun t sum => (t.leg, (sum + 128) / 256)) (s.slot m).seats c.sums
      | none => []
    (∀ j, (s.slot i).partner = some j → (s.slot j).partner = some i → i < j →
      exec (.calibrationComplete j) s = exec (.calibrationComplete i) s) ∧
    ((s.slot i).partner = none → (∀ p ∈ offs, p.2.natAbs ≤ s.image.ofsMax) →
      exec (.calibrationComplete i) s =
        ((s.mapLegs fun l x =>
            match offs.find? fun p => p.1 = l with
            | some p => { x with offset := p.2 }
            | none => x).setSlot i { s.slot i with state := .run, cal := none }).thenWorks ws) ∧
    ((s.slot i).partner = none →
      ∀ p, (offs.find? fun p => decide (s.image.ofsMax < p.2.natAbs)) = some p →
        exec (.calibrationComplete i) s =
          (s.recordFault i .offset (some p.1)).thenWorks ws) ∧
    (∀ j, (s.slot i).partner = some j → i < j → (s.slot j).state = .calibrating →
      ∃ t : State, exec (.calibrationComplete i) s = t.thenWorks ws ∧
        (s.failingLeg i = none → s.failingLeg j = none →
          t.slot i = { s.slot i with state := .run, cal := none } ∧
          t.slot j = { s.slot j with state := .run, cal := none } ∧
          ∀ l, t.leg l =
            match (offsets j).find? fun p => p.1 = l with
            | some p => { s.leg l with offset := p.2 }
            | none =>
              match offs.find? fun p => p.1 = l with
              | some p => { s.leg l with offset := p.2 }
              | none => s.leg l) ∧
        (s.failingLeg i ≠ none ∨ s.failingLeg j ≠ none →
          (∀ l, (t.leg l).offset = (s.leg l).offset) ∧
          ∀ m, m = i ∨ m = j →
            (t.slot m).state = .fault ∧ (t.slot m).cal = none ∧
            (t.slot m).causes = (s.slot m).causes |||
              (if s.failingLeg m = none then Cause.partner.bit else Cause.offset.bit) ∧
            ((s.slot m).causes = 0#16 → (t.slot m).firstFault =
              some ⟨if s.failingLeg m = none then .partner else .offset, s.failingLeg m,
                s.cyc.number⟩)) ∧
        (∀ m, m ≠ i → m ≠ j → t.slot m = s.slot m))

/-- R61, R56: at a compare match the leg's target becomes the ideal state of the count in progress, HIGH
from count HP - C and LOW from count HP + C, with dead time. A pending turn-on that falls due, while the
carrier still calls for the leg's target, commands its one switch on as the last thing at its instant: it
is owed there, and carried out as the clock leaves the instant, unless a change of target has cancelled it
or put it off by then. When a match, or a period event, changes the target at that very instant, the
turn-on is cancelled and the change carried out in its place (R62). That a switch comes on as the clock
leaves the instant is log 31's reading; a turn-on taken late comes at the present instant (log 3). Nothing
else changes but the clock. -/
def Obligations.CarrierMovesSwitches : Prop :=
  ∀ (s : State) (l : LegId), s.agenda = [] →
    let hp := s.image.hp (groupOf l)
    let start := (s.group (groupOf l)).periodStart
    let dt := s.image.dt (groupOf l)
    (∀ c, s.mode = .operate → (s.leg l).drive = .switching → (s.leg l).active = some c → 0 < c →
      c < hp →
      (s.now ≤ start + (hp - c) →
        exec (.carrierCompareMatch l .rise) s =
          .next ((s.atCount (start + (hp - c))).setLeg l
            ((s.leg l).setTarget dt (start + (hp - c)) .high))) ∧
      (s.now ≤ start + (hp + c) →
        exec (.carrierCompareMatch l .fall) s =
          .next ((s.atCount (start + (hp + c))).setLeg l
            ((s.leg l).setTarget dt (start + (hp + c)) .low)))) ∧
    (∀ p, (s.leg l).pendingOn = some p →
      let at_ := max s.now p.due
      let called : Target :=
        if s.mode = .operate ∧ (s.leg l).drive = .switching then
          if start + 2 * hp ≤ at_ then
            match (s.leg l).shadow with
            | some c => if hp ≤ c then .high else .low
            | none => .none
          else idealState ((s.leg l).active.getD 0) hp (at_ - start)
        else (s.leg l).target
      (called = (s.leg l).target →
        let u : State := { s.atCount p.due with agenda := [.turnOn l] }
        let on : State := (s.atCount p.due).setLeg l
          (match p.switch with
            | .high => { s.leg l with gh := true, pendingOn := none }
            | .low => { s.leg l with gl := true, pendingOn := none })
        exec (.deadTimeTurnOn l) s = .next u ∧
        (∀ n, at_ < n → u.arrive n = on.atCount n) ∧
        (∀ pins order, s.mode ≠ .reset → at_ < nextInstant 100 s.lastFast at_ →
          exec (.fastSampleEvent pins order) u = exec (.fastSampleEvent pins order) on)) ∧
      (called ≠ (s.leg l).target →
        exec (.deadTimeTurnOn l) s =
          .next ((s.atCount p.due).setLeg l ((s.leg l).setTarget dt at_ called)))) ∧
    (∀ v : State, (∀ p, (v.leg l).pendingOn = some p → v.now < p.due) →
      perform (.turnOn l) v = v) ∧
    (∀ c n, 0 < hp → c ≤ hp → n < 2 * hp →
      idealState c hp n = if hp - c ≤ n ∧ n < hp + c then .high else .low)

/-- R56: a change of target commands the unwanted switch off at once; the wanted one comes on DT counts
later, or at once when DT is 0; a change to NONE commands both off and cancels what was pending; a target
that does not change leaves the leg undisturbed. -/
def Obligations.TargetChangeTakesDeadTime : Prop :=
  ∀ (x : Leg) (dt now : Nat) (t : Target),
    let y := x.setTarget dt now t
    (x.target = t → y = x) ∧
    (x.target ≠ t →
      y.target = t ∧
      (t = .none → y.gh = false ∧ y.gl = false ∧ y.pendingOn = none) ∧
      (t = .high → y.gl = false ∧
        (dt = 0 → y.gh = true ∧ y.pendingOn = none) ∧
        (0 < dt → y.gh = x.gh ∧ y.pendingOn = some ⟨.high, now + dt⟩)) ∧
      (t = .low → y.gh = false ∧
        (dt = 0 → y.gl = true ∧ y.pendingOn = none) ∧
        (0 < dt → y.gl = x.gl ∧ y.pendingOn = some ⟨.low, now + dt⟩)) ∧
      y = { x with target := y.target, gh := y.gh, gl := y.gl, pendingOn := y.pendingOn })

/-! ### Links -/

/-- R163, R173, R174: select going low starts a transfer with the snapshot as outgoing bytes and its first
bit on the output; with RST low the transfer is not received, and the level is kept (the model's choice,
log 9). In SHIFTING a rising clock edge stores one bit, packed most significant bit first, and keeps the
first 255 bytes; a falling edge puts the next outgoing bit on the output, zeros after the last byte;
outside SHIFTING a rising edge is only noted for the reset count (the model's reading, log 23). -/
def Obligations.SelectAndClockShiftBits : Prop :=
  ∀ (s : State) (k : Link) (sdi : Bool),
    let p := s.port k
    let c : Byte := (p.cur <<< 1) ||| (if sdi then 1#8 else 0#8)
    (p.selLow = false → s.mode ≠ .reset →
      exec (.transferStart k) s = .next (s.setPort k { p with
        selLow := true, rx := .shifting, bitCount := 0, bytes := [], cur := 0#8
        txBytes := p.snapshot.getD [], txPos := 0
        sdo := (((p.snapshot.getD []).getD 0 0#8).getLsbD 7) })) ∧
    (p.selLow = false → s.mode = .reset →
      exec (.transferStart k) s = .next (s.setPort k { p with selLow := true })) ∧
    (s.mode ≠ .reset →
      (p.rx = .shifting → (p.bitCount + 1) % 8 ≠ 0 →
        exec (.linkClockEdge k .rising sdi) s =
          .next (s.setPort k { p with clockSeen := true, bitCount := p.bitCount + 1, cur := c })) ∧
      (p.rx = .shifting → (p.bitCount + 1) % 8 = 0 →
        exec (.linkClockEdge k .rising sdi) s =
          .next (s.setPort k { p with
            clockSeen := true, bitCount := p.bitCount + 1, cur := 0#8
            bytes := if p.bytes.length < 255 then p.bytes ++ [c] else p.bytes })) ∧
      (p.rx = .shifting →
        exec (.linkClockEdge k .falling sdi) s =
          .next (s.setPort k { p with
            txPos := p.txPos + 1
            sdo := (p.txBytes.getD ((p.txPos + 1) / 8) 0#8).getLsbD (7 - (p.txPos + 1) % 8) })) ∧
      (p.rx ≠ .shifting →
        exec (.linkClockEdge k .rising sdi) s = .next (s.setPort k { p with clockSeen := true }) ∧
        exec (.linkClockEdge k .falling sdi) s = .next s))

/-- R163, R164, R166 to R168, R173, R175: select going high ends the transfer. A link reset that is owed at
that instant is made first (the model's choice, log 4); otherwise, after SHIFTING, what was received is
tested. The first check of R164 that fails discards the telegram with the mark of that check and the
link's flag; a telegram that passes all five replaces the latest-command store, read by the layout of
R175, and its request joins the queue, or is dropped with OVERRUN when two wait. The CRC is that of R165: from
the link's seed, bit by bit from the top of each byte, with generator 0x1021. -/
def Obligations.DriveTelegramActs : Prop :=
  (∀ k, crcSeed k = match k with | .a => 0x1F1F#16 | .b => 0x2E2E#16 | .s => 0x3D3D#16) ∧
  (∀ seed : Word, crc seed [] = seed ∧ ∀ (byte : Byte) (bytes : List Byte),
    let shift : Word → Nat → Word := fun r bit =>
      if byte.getLsbD bit = r.getLsbD 15 then r <<< 1 else (r <<< 1) ^^^ 0x1021#16
    crc seed (byte :: bytes) = crc ([7, 6, 5, 4, 3, 2, 1, 0].foldl shift seed) bytes) ∧
  (∀ (k : Link) (bits : Nat) (bytes : List Byte),
    let b : Nat → Nat := fun i => (bytes.getD i 0#8).toNat
    let fails : CheckFail → Prop := fun e =>
      match e with
      | .framing => bits % 8 ≠ 0
      | .length => bits / 8 < 2 ∨ bits / 8 < b 1 ∨ b 1 < (if k = .s then 31 else 14)
      | .type => b 0 ≠ (if k = .s then 0x51 else 0x31)
      | .crc =>
        (crc (crcSeed k) (bytes.take (b 1 - 2))).toNat ≠ 256 * b (b 1 - 2) + b (b 1 - 1)
      | .content =>
        if k = .s then b 1 ≠ 31
        else 8 < b 3 ∨ b 1 ≠ 14 + 10 * b 3 ∨ (∃ i < b 3, 7 < b (12 + 10 * i)) ∨
          ∃ i j, i < j ∧ j < b 3 ∧ b (12 + 10 * i) = b (12 + 10 * j)
    (acceptance k bits bytes = none ↔ ∀ e, ¬fails e) ∧
    (∀ e, acceptance k bits bytes = some e ↔
      fails e ∧ ∀ f : CheckFail, f.code < e.code → ¬fails f)) ∧
  (∀ bytes : List Byte,
    let b : Nat → Byte := fun i => bytes.getD i 0#8
    let word : Nat → Word := fun i => BitVec.ofNat 16 (256 * (b i).toNat + (b (i + 1)).toNat)
    let tel := readTelegram bytes
    tel.seq = b 2 ∧ tel.request = ⟨b 4, b 5, b 6, b 7, word 8, word 10⟩ ∧
      tel.entries.length = (b 3).toNat ∧
      ∀ i e, tel.entries[i]? = some e →
        ((b (12 + 10 * i)).toNat ≤ 7 → e.slot.val = (b (12 + 10 * i)).toNat) ∧
        e.cur = (b (13 + 10 * i)).getLsbD 0 ∧ e.ang = (b (13 + 10 * i)).getLsbD 1 ∧
        e.idStar = (word (14 + 10 * i)).toInt ∧ e.iqStar = (word (16 + 10 * i)).toInt ∧
        e.theta = word (18 + 10 * i) ∧ e.omega = (word (20 + 10 * i)).toInt) ∧
  (∀ (s : State) (d : DriveLink), (s.port d.toLink).selLow = true →
    let p := s.port d.toLink
    let x := s.drive d
    let tel := readTelegram p.bytes
    let closed : Bool → Port := fun bad =>
      { p with selLow := false, rx := .idle, sdo := false, failed := bad }
    (Work.linkReset d.toLink ∉ s.agenda →
      (p.rx ≠ .shifting →
        exec (.driveCommandTelegram d) s = .next (s.setPort d.toLink (closed p.failed))) ∧
      (∀ e, p.rx = .shifting → acceptance d.toLink p.bitCount p.bytes = some e →
        exec (.driveCommandTelegram d) s =
          .next ((({ s with globalSet := s.globalSet ||| (linkFlag d.toLink).bit }).setPort d.toLink
            (closed true)).setDrive d { x with errs := x.errs.set e })) ∧
      (p.rx = .shifting → acceptance d.toLink p.bitCount p.bytes = none →
        exec (.driveCommandTelegram d) s =
          .next ((s.setPort d.toLink (closed false)).setDrive d
            (if tel.request.kind = 0#8 then { x with store := some ⟨tel, false⟩ }
              else if x.queue.length < 2 then
                { x with store := some ⟨tel, false⟩, queue := x.queue ++ [tel.request] }
              else
                { x with store := some ⟨tel, false⟩, errs := { x.errs with overrun := true } })))) ∧
    (s.agenda = [.linkReset d.toLink] → p.resetCount = 200 →
      exec (.driveCommandTelegram d) s =
        .next ((({ s with agenda := [] }).setPort d.toLink
          { p with
            selLow := false, rx := .idle, bitCount := 0, bytes := [], cur := 0#8, txBytes := []
            txPos := 0, sdo := false, resetCount := 0 }).setDrive d
          { x with
            store := none
            queue := if (s.drive d).hold = StoreHold.inFlight then x.queue.take 1 else []
            response := ⟨0#8, 0#8, 0#8, 0#8, 0#16, 0#16⟩
            errs := ⟨false, false, false, false, false, false⟩ })))

/-- R134 to R136, R138, R139, R164, R166: a safety telegram that fails a check sets the error code and
LINK_S; a repeat sets the REPEAT mark alone; a fresh one stores permissions, limits, signature and alive
count, sets the counter to 0, compares signatures, with SIGNATURE_MISMATCH while they differ, and forms
every permission afresh. R12: a changed permission takes a slot from CALIBRATING to OFF_HELD under STOP
or OFF, from RUN to STOPPING under STOP, from RUN or STOPPING to OFF_HELD under OFF, and from STOPPING
back to RUN under ALLOW or LIMIT; that the loaded mark of a stop counter is set by every load is the model's
reading of R142 (log 18). R15: a slot in OFF_HELD then goes to CLAIMED exactly when TOFF is HIGH
and its permission lets it run. A link reset that is owed at that instant is made first, and nothing is
received then (the model's choice, log 4). -/
def Obligations.SafetyTelegramActs : Prop :=
  (∀ (bytes : List Byte) (i : SlotId),
    let b : Nat → Byte := fun i => bytes.getD i 0#8
    let word : Nat → Word := fun i => BitVec.ofNat 16 (256 * (b i).toNat + (b (i + 1)).toNat)
    readAlive bytes = b 2 ∧ readSignature bytes = word 3 ∧
      (readPermission bytes i).1.code = min (b (5 + 3 * i.val)).toNat 3 ∧
      (readPermission bytes i).2 =
        if (b (5 + 3 * i.val)).toNat = 1 then (max (word (6 + 3 * i.val)).toInt 0).toNat else 0) ∧
  (∀ s : State, (s.port .s).selLow = true →
    let p := s.port .s
    let closed : Bool → Port := fun bad =>
      { p with selLow := false, rx := .idle, sdo := false, failed := bad }
    (s.agenda = [.linkReset .s] → p.resetCount = 200 →
      exec .safetyTelegram s =
        .next (({ s with
          agenda := []
          safety := { s.safety with errCode := 0, repeatMark := false } }).setPort .s
          { p with
            selLow := false, rx := .idle, bitCount := 0, bytes := [], cur := 0#8, txBytes := []
            txPos := 0, sdo := false, resetCount := 0 })) ∧
    (Work.linkReset .s ∉ s.agenda →
      (p.rx ≠ .shifting → exec .safetyTelegram s = .next (s.setPort .s (closed p.failed))) ∧
      (∀ e, p.rx = .shifting → acceptance .s p.bitCount p.bytes = some e →
        exec .safetyTelegram s =
          .next (({ s with
            globalSet := s.globalSet ||| 0x0400#16
            safety := { s.safety with errCode := e.code } }).setPort .s (closed true))) ∧
      (p.rx = .shifting → acceptance .s p.bitCount p.bytes = none →
        s.safety.lastAlive = some (readAlive p.bytes) →
        exec .safetyTelegram s =
          .next (({ s with safety := { s.safety with repeatMark := true } }).setPort .s
            (closed false))) ∧
      (p.rx = .shifting → acceptance .s p.bitCount p.bytes = none →
        s.safety.lastAlive ≠ some (readAlive p.bytes) →
        ∃ t : State, exec .safetyTelegram s = .next t ∧ t.port .s = closed false ∧
          t.safety = { s.safety with
            lastAlive := some (readAlive p.bytes)
            freshSeen := true
            expectedSig := readSignature p.bytes
            freshness := 0
            mismatch :=
              if s.mode = .loading then s.safety.mismatch
              else decide (readSignature p.bytes ≠ s.signature) } ∧
          t.globalSet =
            (if s.mode ≠ .loading ∧ readSignature p.bytes ≠ s.signature then
              s.globalSet ||| 0x0020#16
            else s.globalSet) ∧
          (∀ i, (t.slot i).storedPerm = (readPermission p.bytes i).1 ∧
            (t.slot i).storedLimit = (readPermission p.bytes i).2 ∧
            (t.slot i).perm = (t.formPermission i).1 ∧ (t.slot i).lPerm = (t.formPermission i).2) ∧
          (∀ i, (t.slot i).state =
            match (s.slot i).state, (t.slot i).perm with
            | .offHeld, q =>
              if t.safety.toffHigh = true ∧ q.permits = true then .claimed else .offHeld
            | st, q =>
              if (s.slot i).perm = q then st
              else
                match st, q with
                | .calibrating, .stop => .offHeld
                | .calibrating, .off => .offHeld
                | .run, .stop => .stopping
                | .run, .off => .offHeld
                | .stopping, .off => .offHeld
                | .stopping, .allow => .run
                | .stopping, .limit => .run
                | _, _ => st) ∧
          (∀ i, (s.slot i).state = .run → (t.slot i).state = .stopping →
            (t.slot i).stopCount = s.image.stopCycles (s.leadOf i) ∧ (t.slot i).stopLoaded = true ∧
              (t.slot i).intD = (s.slot i).intD ∧ (t.slot i).intQ = (s.slot i).intQ) ∧
          (∀ i, (s.slot i).state = .stopping → (t.slot i).state = .run →
            (t.slot i).stopCount = 0 ∧ (t.slot i).intD = (s.slot i).intD ∧
              (t.slot i).intQ = (s.slot i).intQ) ∧
          (∀ i, (s.slot i).state.isActive = true → (t.slot i).state = .offHeld →
            (t.slot i).intD = 0 ∧ (t.slot i).intQ = 0 ∧ (t.slot i).stopCount = 0 ∧
              (t.slot i).cal = none ∧
              ∀ x ∈ (s.slot i).seats, (t.leg x.leg).IsOff ∧ (t.leg x.leg).shadow = none ∧
                (t.leg x.leg).offset = (s.leg x.leg).offset) ∧
          t.dc = s.dc ∧ t.cyc = s.cyc ∧ t.drives = s.drives ∧ t.mode = s.mode ∧ t.image = s.image)))

/-- R138: outside OPERATE, before a fresh telegram or on a signature mismatch the effective permission is
OFF; otherwise it is the stored one, for a pair the more restrictive of the two, and at SAFE_TMO neither
ALLOW nor LIMIT. A counter above SAFE_TMO counts as standing there (the model's reading, log 15). -/
def Obligations.PermissionIsFormed : Prop :=
  ∀ (s : State) (i : SlotId),
    let f := s.formPermission i
    let x := s.slot i
    let lost := s.image.safeTmo ≤ s.safety.freshness
    (s.safety.freshSeen = false ∨ s.mode ≠ .operate ∨ s.safety.mismatch = true → f = (.off, 0)) ∧
    (s.safety.freshSeen = true → s.mode = .operate → s.safety.mismatch = false →
      (∀ p, x.partner = some p →
        f.1.code = max (if lost then Permission.stop.code else 0)
          (max x.storedPerm.code (s.slot p).storedPerm.code) ∧
        (f.1 = .limit → x.storedPerm = .limit → (s.slot p).storedPerm = .limit →
          f.2 = min x.storedLimit (s.slot p).storedLimit) ∧
        (f.1 = .limit → x.storedPerm = .limit → (s.slot p).storedPerm = .allow →
          f.2 = x.storedLimit) ∧
        (f.1 = .limit → x.storedPerm = .allow → (s.slot p).storedPerm = .limit →
          f.2 = (s.slot p).storedLimit)) ∧
      (x.partner = none →
        f.1.code = max (if lost then Permission.stop.code else 0) x.storedPerm.code ∧
        (f.1 = .limit → f.2 = x.storedLimit)) ∧
      (f.1 ≠ .limit → f.2 = 0))

/-- R173, R150: a reset count at 200 drops the transfer until select goes high; a drive link loses its
store, its queue but for a STORE in flight, its response field and its error marks; the Safety Link loses
its error code and REPEAT mark; nothing else changes. -/
def Obligations.LinkResetDropsTransfer : Prop :=
  ∀ (s : State) (k : Link) (ws : List Work), s.agenda = .linkReset k :: ws →
    (s.port k).resetCount = 200 →
    let u := s.setPort k { s.port k with
      rx := .waitDeselect, bitCount := 0, bytes := [], cur := 0#8, txBytes := [], txPos := 0
      sdo := false, resetCount := 0 }
    (∀ d : DriveLink, d.toLink = k →
      exec (.linkReset k) s = (u.setDrive d { s.drive d with
        store := none
        queue := if (s.drive d).hold = .inFlight then (s.drive d).queue.take 1 else []
        response := ⟨0#8, 0#8, 0#8, 0#8, 0#16, 0#16⟩
        errs := ⟨false, false, false, false, false, false⟩ }).thenWorks ws) ∧
    (k = .s →
      exec (.linkReset k) s =
        ({ u with safety := { s.safety with errCode := 0, repeatMark := false } }).thenWorks ws)

/-- R149, R171, R172, R176: what the two snapshots of a cycle event carry, byte by byte: the drive
response with a record for each slot its link owns, in ascending order, and the safety response with all
eight slots. Each has the length its byte 1 gives and closes with its link's CRC, high byte first (R165). Building one shows the
error marks, or the error code and REPEAT mark, and then clears them; a snapshot that shows the final
result of a STORE frees the queue (R170). Nothing else changes. That an owned slot is listed as it stands
is log 28's choice, that SAFETY_LOST stands above SAFE_TMO is log 15's reading, and that bits 2 to 6 of a
slot's permission byte are 0 in the safety response is log 36's choice. -/
def Obligations.SnapshotsAreClosed : Prop :=
  ∀ (s : State) (d : DriveLink),
    let t := perform (.snapshot d) s
    let v := perform .safetySnapshot s
    let own : List SlotId := (List.finRange 8).filter fun i => decide ((s.slot i).owner = some d)
    let hi : Word → Byte := fun w => BitVec.ofNat 8 (w.toNat / 256)
    let lo : Word → Byte := fun w => BitVec.ofNat 8 w.toNat
    let x := s.drive d
    ∃ a b : List Byte, t = (s.setPort d.toLink { s.port d.toLink with snapshot := some a }).setDrive d
        { x with
          errs := ⟨false, false, false, false, false, false⟩
          hold := if x.hold = .reporting then .free else x.hold } ∧
      v = ({ s with safety := { s.safety with errCode := 0, repeatMark := false } }).setPort .s
        { s.port .s with snapshot := some b } ∧
      a.length = 22 + 12 * own.length ∧ b.length = 40 ∧
      (let c := crc (crcSeed d.toLink) (a.take (20 + 12 * own.length))
      a.drop (20 + 12 * own.length) = [hi c, lo c]) ∧
      (let c := crc (crcSeed .s) (b.take 38)
      b.drop 38 = [hi c, lo c]) ∧
      crc (crcSeed d.toLink) a = 0#16 ∧ crc (crcSeed .s) b = 0#16 ∧
      (∃ flags : Byte,
        a.take 20 =
          [0x32#8, BitVec.ofNat 8 a.length, x.seqEcho,
            (match s.mode with | .reset => 0#8 | .loading => 1#8 | .setup => 2#8 | .operate => 3#8),
            hi s.cyc.number, lo s.cyc.number, hi (natWord s.dc.vdc), lo (natWord s.dc.vdc),
            hi s.globalSet, lo s.globalSet, flags, BitVec.ofNat 8 own.length,
            x.response.kind, x.response.tag, x.response.code, x.response.target,
            hi x.response.value1, lo x.response.value1, hi x.response.value2,
            lo x.response.value2] ∧
        flags.getLsbD 0 = x.errs.framing ∧ flags.getLsbD 1 = x.errs.length ∧
        flags.getLsbD 2 = x.errs.type ∧ flags.getLsbD 3 = x.errs.crc ∧
        flags.getLsbD 4 = x.errs.content ∧ flags.getLsbD 5 = x.errs.overrun ∧
        flags.getLsbD 6 = x.holdMark ∧ flags.getLsbD 7 = s.dc.chopper) ∧
      (∀ n i, own[n]? = some i →
        let y := s.slot i
        let k := match y.partner with
          | none => y.kScale
          | some p => min y.kScale (s.slot p).kScale
        ∃ flags : Byte,
          (a.drop (20 + 12 * n)).take 12 =
            [BitVec.ofNat 8 i.val, BitVec.ofNat 8 y.state.code,
              hi (BitVec.ofInt 16 y.avgD), lo (BitVec.ofInt 16 y.avgD),
              hi (BitVec.ofInt 16 y.avgQ), lo (BitVec.ofInt 16 y.avgQ),
              hi (natWord k), lo (natWord k), hi y.snapCauses, lo y.snapCauses,
              BitVec.ofNat 8 y.perm.code, flags] ∧
          flags.getLsbD 0 = y.reported.vsat ∧ flags.getLsbD 1 = decide (k < 32768) ∧
          flags.getLsbD 2 = y.reported.regenLimited ∧ flags.getLsbD 3 = y.reported.tempLimited ∧
          flags.getLsbD 4 = decide (i ∈ x.curIgnored) ∧
          flags.getLsbD 5 = decide (i ∈ x.entryIgnored) ∧
          flags.getLsbD 6 = decide (y.state = .stopping) ∧ flags.getLsbD 7 = false) ∧
      (∃ flags : Byte,
        b.take 6 =
          [0x52#8, 40#8, s.safety.lastAlive.getD 0#8, hi s.signature, lo s.signature, flags] ∧
        flags.getLsbD 0 = s.safety.toffHigh ∧
        flags.getLsbD 1 = decide (s.image.safeTmo ≤ s.safety.freshness) ∧
        flags.getLsbD 2 = s.safety.mismatch ∧ flags.getLsbD 3 = s.safety.repeatMark ∧
        (s.safety.errCode ≤ 5 → flags.toNat / 16 = s.safety.errCode)) ∧
      (∀ i : SlotId,
        let y := s.slot i
        let off : Bool := y.seats.all fun q => decide ((s.leg q.leg).drive = .off)
        (b.drop (6 + 4 * i.val)).take 4 =
          [BitVec.ofNat 8 y.state.code, BitVec.ofNat 8 (y.perm.code + if off then 128 else 0),
            hi (natWord y.stopCount), lo (natWord y.stopCount)])

/-! ### Served requests -/

/-- R5, R6: every answer of CLAIM, and what it changes. -/
def Obligations.ClaimAnswers : Prop :=
  ∀ (s : State) (d : DriveLink) (r : Request) (rest : List Request) (ws : List Work),
    s.Serves d r rest ws → r.kind = 1#8 →
    let u := s.dequeued d rest
    exec (.claim d) s = State.thenWorks
      (if h : r.target.toNat < 8 then
        let i : SlotId := ⟨r.target.toNat, h⟩
        let x := s.slot i
        if s.mode ≠ .operate then u.respond d r .wrongMode 0#16 0#16
        else if x.seats = [] then u.respond d r .notConfigured 0#16 0#16
        else match x.owner with
          | none => (u.setSlot i { x with state := .claimed, owner := some d }).respond d r .done 1#16 0#16
          | some e =>
            if e = d then u.respond d r .done (natWord x.state.code) 0#16
            else u.respond d r .owned (natWord (ownerCode (some e))) 0#16
      else u.respond d r .badValue 0#16 0#16) ws

/-- R5, R7: every answer of RELEASE, and what it changes. -/
def Obligations.ReleaseAnswers : Prop :=
  ∀ (s : State) (d : DriveLink) (r : Request) (rest : List Request) (ws : List Work),
    s.Serves d r rest ws → r.kind = 2#8 →
    let u := s.dequeued d rest
    exec (.release d) s = State.thenWorks
      (if h : r.target.toNat < 8 then
        let i : SlotId := ⟨r.target.toNat, h⟩
        let x := s.slot i
        if s.mode ≠ .operate then u.respond d r .wrongMode 0#16 0#16
        else if x.owner ≠ some d then u.respond d r .notOwner (natWord (ownerCode x.owner)) 0#16
        else if x.state ≠ .claimed ∧ x.state ≠ .offHeld then
          u.respond d r .wrongState (natWord x.state.code) 0#16
        else (u.setSlot i { x with
          state := .parked, owner := none, resv := 0, kScale := 32768, demand := 0, idW := 0
          iqW := 0, theta := 0#16, omega := 0, anglePresent := false
          staged := Vector.replicate 7 none }).respond d r .done 0#16 0#16
      else u.respond d r .badValue 0#16 0#16) ws

/-- R5, R8, R81: every answer of ENABLE, and what it changes in the slot and its partner. -/
def Obligations.EnableAnswers : Prop :=
  ∀ (s : State) (d : DriveLink) (r : Request) (rest : List Request) (ws : List Work),
    s.Serves d r rest ws → r.kind = 3#8 →
    let u := s.dequeued d rest
    let on : Slot → Slot := fun x =>
      { x with
        state := .calibrating, intD := 0, intQ := 0, kScale := 32768
        cal := some ⟨0, x.seats.map fun _ => 0⟩ }
    exec (.enable d) s = State.thenWorks
      (if h : r.target.toNat < 8 then
        let i : SlotId := ⟨r.target.toNat, h⟩
        let x := s.slot i
        if s.mode ≠ .operate then u.respond d r .wrongMode 0#16 0#16
        else if x.owner ≠ some d then u.respond d r .notOwner (natWord (ownerCode x.owner)) 0#16
        else if x.state ≠ .claimed then u.respond d r .wrongState (natWord x.state.code) 0#16
        else if x.perm = .stop ∨ x.perm = .off ∨ s.safety.toffHigh = false then
          u.respond d r .noPermission (natWord x.perm.code)
            (if s.safety.toffHigh then 0#16 else 1#16)
        else if s.dc.uv = true then u.respond d r .noDc (natWord s.dc.vdc) 0#16
        else match x.partner with
          | none => (u.setSlot i (on x)).respond d r .done 2#16 0#16
          | some p =>
            if (s.slot p).state ≠ .claimed ∨ (s.slot p).owner ≠ some d then
              u.respond d r .partner (natWord p.val) (natWord (s.slot p).state.code)
            else ((u.setSlot i (on x)).setSlot p (on (s.slot p))).respond d r .done 2#16 2#16
      else u.respond d r .badValue 0#16 0#16) ws

/-- R5, R9: every answer of DISABLE, and where it takes the slot and its partner. -/
def Obligations.DisableAnswers : Prop :=
  ∀ (s : State) (d : DriveLink) (r : Request) (rest : List Request) (ws : List Work),
    s.Serves d r rest ws → r.kind = 4#8 →
    let u := s.dequeued d rest
    let goal : SlotState → SlotState := fun st => if st = .stopping then .offHeld else .claimed
    exec (.disable d) s = State.thenWorks
      (if h : r.target.toNat < 8 then
        let i : SlotId := ⟨r.target.toNat, h⟩
        let x := s.slot i
        if s.mode ≠ .operate then u.respond d r .wrongMode 0#16 0#16
        else if x.owner ≠ some d then u.respond d r .notOwner (natWord (ownerCode x.owner)) 0#16
        else if x.state.isActive = false then u.respond d r .wrongState (natWord x.state.code) 0#16
        else
          let v := u.haltSlot i (goal x.state)
          match x.partner with
          | none => v.respond d r .done (natWord (goal x.state).code) 0#16
          | some p =>
            let w := if (v.slot p).state.isActive then v.haltSlot p (goal (v.slot p).state) else v
            w.respond d r .done (natWord (goal x.state).code) (natWord (w.slot p).state.code)
      else u.respond d r .badValue 0#16 0#16) ws

/-- R5, R10, R152, R154: every answer of CLEAR: the causes whose source is gone are removed, and with none
left the slot goes to CLAIMED. Which causes are gone follows R152: each is gone when its source is not
present, a leg cause being tested on the leg of the first-fault record; OFFSET and SETPOINT_STALE are gone
at once. -/
def Obligations.ClearAnswers : Prop :=
  (∀ (s : State) (i : SlotId),
    let gone := s.goneCauses i
    let leg := (s.slot i).firstFault.bind FirstFault.leg
    (gone.getLsbD 0 = true ↔ ∀ l, leg = some l → (s.leg l).fastValue.natAbs ≤ s.image.ioc i) ∧
    (gone.getLsbD 1 = true ↔ ∀ l, leg = some l → (s.leg l).ready = true) ∧
    (gone.getLsbD 2 = true ↔ ∀ l, leg = some l → (s.leg l).runLen < 128) ∧
    (gone.getLsbD 3 = true ↔ (s.slot i).check.sumMark = false) ∧
    (gone.getLsbD 4 = true ↔ ∀ l ph, leg = some l → (s.slot i).phaseOf l = some ph →
      (s.slot i).check.imbMark[phaseIndex ph] = false) ∧
    gone.getLsbD 5 = true ∧
    (gone.getLsbD 6 = true ↔ ∀ g, (s.slot i).group = some g → (s.group g).temp < s.image.tTrip) ∧
    (gone.getLsbD 7 = true ↔ s.dc.uv = false) ∧
    (gone.getLsbD 8 = true ↔ s.dc.ov = false) ∧
    (gone.getLsbD 9 = true ↔ ∀ p, (s.slot i).partner = some p → (s.slot p).state ≠ .fault) ∧
    gone.getLsbD 10 = true ∧
    ∀ n, 11 ≤ n → gone.getLsbD n = false) ∧
  (∀ (s : State) (d : DriveLink) (r : Request) (rest : List Request) (ws : List Work),
    s.Serves d r rest ws → r.kind = 5#8 →
    let u := s.dequeued d rest
    exec (.clear d) s = State.thenWorks
      (if h : r.target.toNat < 8 then
        let i : SlotId := ⟨r.target.toNat, h⟩
        let x := s.slot i
        let left := x.causes &&& ~~~(s.goneCauses i)
        if s.mode ≠ .operate then u.respond d r .wrongMode 0#16 0#16
        else if x.owner ≠ some d then u.respond d r .notOwner (natWord (ownerCode x.owner)) 0#16
        else if x.state ≠ .fault then u.respond d r .wrongState (natWord x.state.code) 0#16
        else if left = 0#16 then
          (u.setSlot i { x with
            state := .claimed, causes := 0#16, firstFault := none }).respond d r .done 1#16 0#16
        else (u.setSlot i { x with causes := left }).respond d r .faultActive left 0#16
      else u.respond d r .badValue 0#16 0#16) ws)

/-- R101, R102: every answer of RESERVE, and the reservation it sets. -/
def Obligations.ReserveAnswers : Prop :=
  ∀ (s : State) (d : DriveLink) (r : Request) (rest : List Request) (ws : List Work),
    s.Serves d r rest ws → r.kind = 6#8 →
    let u := s.dequeued d rest
    exec (.reserve d) s = State.thenWorks
      (if h : r.target.toNat < 8 then
        let i : SlotId := ⟨r.target.toNat, h⟩
        let x := s.slot i
        let others : Int :=
          ((List.finRange 8).map fun j => if j = i then 0 else (s.slot j).resv).sum
        if s.mode ≠ .operate then u.respond d r .wrongMode 0#16 0#16
        else if x.owner ≠ some d then u.respond d r .notOwner (natWord (ownerCode x.owner)) 0#16
        else if 32767 < r.arg1.toNat then u.respond d r .badValue 0#16 2#16
        else if (s.image.iIn : Int) < others + r.arg1.toNat then
          u.respond d r .overBudget (toWord (s.image.iIn - others)) (natWord x.resv)
        else (u.setSlot i { x with resv := r.arg1.toNat }).respond d r .done r.arg1
          (toWord (s.image.iIn - others - r.arg1.toNat))
      else u.respond d r .badValue 0#16 1#16) ws

/-- R155, R154, R157, R159: every answer of READ_FAULTS and of READ_GLOBAL. An owner's reading with
arg1 = 0 removes the gone causes after the answer is formed; any other reading removes nothing.
R160, R161: the FLT line is low while a cause or a flag that FLT_MASK does not hold stands in a set.
READ_GLOBAL removes every flag whose source is not present, by the table of R157; POWER_UP and
CROSS_REQUEST are gone at once. SAFETY_LOST is not gone above SAFE_TMO (the model's reading, log 15). -/
def Obligations.FaultReadsAnswer : Prop :=
  (∀ s : State,
    let gone := s.goneFlags
    gone.getLsbD 0 = true ∧ (gone.getLsbD 1 = true ↔ s.dc.uv = false) ∧
    (gone.getLsbD 2 = true ↔ s.dc.ov = false) ∧
    (gone.getLsbD 3 = true ↔ s.cyc.genActive = false) ∧
    (gone.getLsbD 4 = true ↔ s.safety.freshness < s.image.safeTmo) ∧
    (gone.getLsbD 5 = true ↔ s.safety.mismatch = false) ∧
    (gone.getLsbD 6 = true ↔ s.imageBad = false) ∧
    (gone.getLsbD 7 = true ↔ ∀ g, (s.group g).temp ≤ s.image.tWarn) ∧
    (gone.getLsbD 8 = true ↔ (s.port .a).failed = false) ∧
    (gone.getLsbD 9 = true ↔ (s.port .b).failed = false) ∧
    (gone.getLsbD 10 = true ↔ (s.port .s).failed = false) ∧
    gone.getLsbD 11 = true ∧ (∀ n, 12 ≤ n → gone.getLsbD n = false) ∧
    (s.fltLow = true ↔
      (∃ i n, (s.slot i).causes.getLsbD n = true ∧ s.image[25].getLsbD n = false) ∨
        ∃ n, s.globalSet.getLsbD n = true ∧ s.image[26].getLsbD n = false)) ∧
  (∀ (s : State) (d : DriveLink) (r : Request) (rest : List Request) (ws : List Work),
    s.Serves d r rest ws →
    let u := s.dequeued d rest
    (r.kind = 7#8 → exec (.readFaults d) s = State.thenWorks
      (if h : r.target.toNat < 8 then
        let i : SlotId := ⟨r.target.toNat, h⟩
        let x := s.slot i
        let left := x.causes &&& ~~~(s.goneCauses i)
        if r.arg1 = 0#16 then
          (if x.owner = some d then
            u.setSlot i { x with
              causes := left, firstFault := if left = 0#16 then none else x.firstFault }
          else u).respond d r .done x.causes
            (match x.firstFault with
              | none => 0xFFFF#16
              | some f => natWord (256 * f.cause.code +
                  (match f.leg with | none => 255 | some l => l.val)))
        else if r.arg1 = 1#16 then
          u.respond d r .done x.causes
            (match x.firstFault with | none => 0#16 | some f => f.cycle)
        else u.respond d r .badValue 0#16 2#16
      else u.respond d r .badValue 0#16 1#16) ws) ∧
    (r.kind = 8#8 → exec (.readGlobal d) s =
      (({ u with globalSet := s.globalSet &&& ~~~s.goneFlags }).respond d r .done s.globalSet
        (s.globalSet &&& ~~~s.goneFlags)).thenWorks ws))

/-- R179, R181, R22: READ_PARAM answers BAD_ID, the signature, or the parameter's value, a waiting tuning
value before the stored one, and changes nothing but the response field and the queue. An identifier's high
byte is the area and its low byte the item: global items 0 to 26 and SIGNATURE, 31, in area 0, a leg's
entry in area 1, and the 16 items of slot n in area 2 + n; each named parameter is read from the bytes that
R179 gives it. The setpoints id_w and iq_w have no identifier (the model's choice, log 33). -/
def Obligations.ReadParamAnswers : Prop :=
  (∀ w : Word,
    let area := w.toNat / 256
    let n := w.toNat % 256
    (∀ g : Fin 27, ParamId.ofWord w = some (.item (.global g)) ↔ area = 0 ∧ n = g.val) ∧
    (ParamId.ofWord w = some .signature ↔ area = 0 ∧ n = 31) ∧
    (∀ l : LegId, ParamId.ofWord w = some (.item (.leg l)) ↔ area = 1 ∧ n = l.val) ∧
    (∀ (m : SlotId) (j : Fin 16),
      ParamId.ofWord w = some (.item (.slot m j)) ↔ area = 2 + m.val ∧ n = j.val)) ∧
  (∀ img : Image,
    [img.iIn, img.kRise, img.vUv, img.vChOff, img.vChOn, img.vRg, img.vOv] =
      (List.finRange 7).map (fun n => (img[n.val]'(by omega)).toNat) ∧
    img.tWarn = img[7].toInt ∧ img.tTrip = img[8].toInt ∧
    (∀ g : GroupId, img.hp g = (img[9 + g.val]'(by omega)).toNat ∧
      img.dt g = (img[13 + g.val]'(by omega)).toNat ∧ img.mp g = (img[17 + g.val]'(by omega)).toNat) ∧
    [img.tCyc, img.holdMax, img.safeTmo, img.ofsMax] =
      (List.finRange 4).map (fun n => (img[21 + n.val]'(by omega)).toNat) ∧
    img.maskCauses = img[25] ∧ img.maskFlags = img[26] ∧
    ∀ m : SlotId,
      [img.kpD m, img.kpQ m, img.kiD m, img.kiQ m, img.vlim m, img.dtcAmp m, img.dtcI m, img.iMax m,
          img.ioc m, img.ocN m, img.isumTol m, img.isumN m, img.ibalTol m, img.tier m,
          img.stopCycles m] =
        (List.finRange 15).map (fun j => (img[56 + 16 * m.val + j.val]'(by omega)).toNat) ∧
      ∀ p, img.partner m = some p ↔ (img[71 + 16 * m.val]'(by omega)).toNat = p.val) ∧
  (∀ (s : State) (d : DriveLink) (r : Request) (rest : List Request) (ws : List Work),
    s.Serves d r rest ws → r.kind = 9#8 →
    let u := s.dequeued d rest
    exec (.readParam d) s = State.thenWorks
      (match ParamId.ofWord r.arg1 with
        | none => u.respond d r .badId 0#16 0#16
        | some .signature => u.respond d r .done s.signature 0#16
        | some (.item (.global g)) => u.respond d r .done s.image[g.val] 0#16
        | some (.item (.leg l)) => u.respond d r .done
            (if s.image[32 + l.val].toNat / 4096 = 1 then s.image[32 + l.val]
              else s.image[32 + l.val] &&& 0xF000#16) 0#16
        | some (.item (.slot n j)) => u.respond d r .done
            (if h : j.val < 7 then
              ((s.slot n).staged[j.val]'h).getD (s.image[56 + 16 * n.val + j.val]'(by omega))
            else s.image[56 + 16 * n.val + j.val]'(by omega)) 0#16) ws)

/-- R181, R21, R22, R54: WRITE_PARAM is tested for identifier, access and value in that order. A number
outside its range is clamped, and a code outside its set is refused; the ranges and code sets are those of
R179, R53 and R161. A write taken at once goes into its
word of the working image and no other; a leg-map entry also gives its leg the function in force, for PHASE
with the slot of bits 11 to 8, the phase of bits 7 to 4 and the index of bits 3 to 0 (R53), turning it off
when the function changes, and a tuning value takes the place of one that waits. A staged write
goes into the slot's waiting values alone. -/
def Obligations.WriteParamAnswers : Prop :=
  (let number : Nat → Nat → ValueKind := .unsigned
   (List.finRange 27).map (fun g => (Item.global g).kind) =
      number 0 32767 :: number 1 32768 :: (List.replicate 5 (number 0 32767) ++
        (List.replicate 2 (ValueKind.signed (-400) 2400) ++ (List.replicate 4 (number 1250 12500) ++
        (List.replicate 8 (number 0 255) ++
        [number 62 8000, number 1 15, number 2 255, number 0 4095, ValueKind.bits 0x07FF#16,
          ValueKind.bits 0x0FFF#16])))) ∧
    (∀ m : SlotId, (List.finRange 16).map (fun j => (Item.slot m j).kind) =
      List.replicate 4 (number 0 32767) ++ (number 0 32768 :: number 0 255 ::
        (List.replicate 3 (number 0 32767) ++
        [number 1 8, number 0 32767, number 1 16, number 0 32767, number 0 3, number 1 4095,
          ValueKind.partnerCode]))) ∧
    ∀ l : LegId, (Item.leg l).kind = .legCode) ∧
  (∀ (i : Item) (v : Word),
    (∀ lo hi, i.kind = .unsigned lo hi → i.examine v =
      if v.toNat < lo then some (natWord lo, true)
      else if hi < v.toNat then some (natWord hi, true) else some (v, false)) ∧
    (∀ lo hi, i.kind = .signed lo hi → i.examine v =
      if v.toInt < lo then some (BitVec.ofInt 16 lo, true)
      else if hi < v.toInt then some (BitVec.ofInt 16 hi, true) else some (v, false)) ∧
    (∀ used, i.kind = .bits used → i.examine v =
      if v &&& ~~~used = 0#16 then some (v, false) else none) ∧
    (i.kind = .partnerCode → i.examine v =
      if v.toNat ≤ 7 ∨ v.toNat = 255 then some (v, false) else none) ∧
    (i.kind = .legCode → i.examine v =
      if v.toNat / 4096 = 1 then
        if v.toNat / 256 % 16 ≤ 7 ∧ v.toNat / 16 % 16 ≤ 2 ∧ v.toNat % 16 ≤ 1 then some (v, false)
        else none
      else if v.toNat / 4096 ≤ 3 then some (v &&& 0xF000#16, false) else none)) ∧
  (∀ (s : State) (i : Item) (v : Word),
    let t := s.writeItem i v
    (∀ (n : Nat) (h : n < 256), t.image[n] =
      if n = (match i with
          | .global g => g.val
          | .leg l => 32 + l.val
          | .slot m j => 56 + 16 * m.val + j.val)
      then v else s.image[n]) ∧
    { t with image := s.image, legs := s.legs, slots := s.slots } = s ∧
    (∀ m, t.slot m =
      match i with
      | .slot n j =>
        if h : j.val < 7 then
          if m = n then { s.slot n with staged := (s.slot n).staged.set j.val none h } else s.slot m
        else s.slot m
      | _ => s.slot m) ∧
    (∀ m, i ≠ .leg m → t.leg m = s.leg m) ∧
    (∀ m, i = .leg m →
      let f := legFuncOf v
      let dt := s.image.dt (groupOf m)
      (v.toNat / 4096 = 0 → f = .unused) ∧ (v.toNat / 4096 = 2 → f = .chopper) ∧
      (v.toNat / 4096 = 3 → f = .forced) ∧
      (v.toNat / 4096 = 1 → ∃ n ph ix, f = .phase n ph ix ∧
        (v.toNat / 256 % 16 ≤ 7 → n.val = v.toNat / 256 % 16) ∧
        (v.toNat / 16 % 16 ≤ 2 →
          v.toNat / 16 % 16 = (match ph with | .u => 0 | .v => 1 | .w => 2)) ∧
        (v.toNat % 16 ≤ 1 → ix.val = v.toNat % 16)) ∧
      t.leg m = (s.leg m).tookEntry f dt s.now s.dc.chopper)) ∧
  (∀ (s : State) (n : SlotId) (j : Fin 16) (v : Word) (h : j.val < 7),
    s.stageItem (.slot n j) v =
      s.setSlot n { s.slot n with staged := (s.slot n).staged.set j.val (some v) h }) ∧
  (∀ (s : State) (d : DriveLink) (r : Request) (rest : List Request) (ws : List Work),
    s.Serves d r rest ws → r.kind = 10#8 →
    let u := s.dequeued d rest
    (∀ i, ParamId.ofWord r.arg1 ≠ some (.item i)) ∧
        exec (.writeParam d) s = (u.respond d r .badId 0#16 0#16).thenWorks ws ∨
    ∃ i, ParamId.ofWord r.arg1 = some (.item i) ∧
      exec (.writeParam d) s = State.thenWorks
        (match s.writeAccess d i, i.examine r.arg2 with
          | .refused a, _ => u.respond d r a.code a.value1 a.value2
          | .atOnce, none => u.respond d r .badValue 0#16 0#16
          | .staged, none => u.respond d r .badValue 0#16 0#16
          | .atOnce, some (v, clamped) =>
            (u.writeItem i v).respond d r (if clamped then .clamped else .done) v 0#16
          | .staged, some (v, clamped) =>
            (u.stageItem i v).respond d r (if clamped then .clamped else .done) v 0#16) ws)

/-- R21: who may write what, and when. The cells that the table says do not arise are tested as in
OPERATE (the model's choice, log 16). -/
def Obligations.WriteAccessTable : Prop :=
  ∀ (s : State) (d : DriveLink),
    (∀ i : Item, i.tuning = false →
      s.writeAccess d i =
        if s.mode = .setup then .atOnce else .refused ⟨.wrongMode, 0#16, 0#16⟩) ∧
    (∀ (n : SlotId) (j : Fin 16), j.val < 7 →
      let x := s.slot n
      s.writeAccess d (.slot n j) =
        if x.state = .parked then
          if s.mode = .setup then .atOnce else .refused ⟨.notOwner, 0#16, 0#16⟩
        else if x.owner ≠ some d then .refused ⟨.notOwner, natWord (ownerCode x.owner), 0#16⟩
        else match x.state with
          | .claimed => .atOnce
          | .calibrating => .staged
          | .run => .staged
          | .stopping => .staged
          | .offHeld => .refused ⟨.wrongState, 5#16, 0#16⟩
          | .fault => .refused ⟨.wrongState, 6#16, 0#16⟩
          | .parked => .atOnce)

/-- R182, R58: every answer of ENTER_SETUP; taken, the carriers stop with every shadow emptied and every
PHASE leg's active compare gone, the mode is SETUP, and every effective permission is OFF. In SETUP
value1 is 0 (the model's choice, log 11). -/
def Obligations.EnterSetupAnswers : Prop :=
  ∀ (s : State) (d : DriveLink) (r : Request) (rest : List Request) (ws : List Work),
    s.Serves d r rest ws → r.kind = 11#8 →
    let u := s.dequeued d rest
    (s.mode = .setup →
      exec (.enterSetup d) s = (u.respond d r .done 0#16 0#16).thenWorks ws) ∧
    (s.mode = .operate →
      (∀ i, (s.slot i).state ≠ .parked → (∀ j, j < i → (s.slot j).state = .parked) →
        exec (.enterSetup d) s = (u.respond d r .slotsInUse (natWord i.val) 0#16).thenWorks ws) ∧
      ((∀ i, (s.slot i).state = .parked) →
        ∃ t : State, exec (.enterSetup d) s = (t.respond d r .done 2#16 0#16).thenWorks ws ∧
          t.mode = .setup ∧ (∀ g, t.carrierValue g = 0) ∧
          (∀ l, t.leg l = { s.leg l with
            shadow := none
            active := if (s.leg l).func.heldByToff = true ∧ (s.leg l).func ≠ .forced then none
              else (s.leg l).active }) ∧
          (∀ i, t.slot i = { s.slot i with perm := .off, lPerm := 0 }) ∧
          t.groups = s.groups ∧ t.image = s.image ∧ t.signature = s.signature ∧ t.cyc = s.cyc ∧
          t.dc = s.dc ∧ t.safety = s.safety ∧ t.ports = s.ports ∧ t.drives = u.drives ∧
          t.nv = s.nv ∧ t.storeOp = s.storeOp ∧ t.globalSet = s.globalSet))

/-- R182, R180, R70, R2, R58: every answer of LEAVE_SETUP. The first check of R182's table that fails on
the working image refuses it, with the lowest number the check names; of several pairs of alike PHASE legs
the first by its lower leg, and then by its higher one, is named (the model's reading, log 19). When every
check passes, the signature is formed over the protected items in ascending identifier order, the forced legs
go off, each slot's leg set, group and partner are derived by R2, the carriers start and the mode is OPERATE,
with every permission formed afresh. Once a fresh telegram has been seen the signatures are compared, and
SIGNATURE_MISMATCH is set when they differ (R136). -/
def Obligations.LeaveSetupAnswers : Prop :=
  (∀ img : Image,
    (img.validate = none ↔ ∀ c n, ¬img.Fails c n) ∧
    (∀ c n, img.validate = some (c, n) →
      img.Fails c n ∧ (∀ c' m, c' < c → ¬img.Fails c' m) ∧
      (c ≠ 2 → ∀ m, m < n → ¬img.Fails c m) ∧
      (c = 2 → ∃ a b, img.Alike a b ∧ b.val = n ∧
        ∀ a' b', img.Alike a' b' → a < a' ∨ a = a' ∧ b ≤ b'))) ∧
  (∀ (s : State) (d : DriveLink) (r : Request) (rest : List Request) (ws : List Work),
    s.Serves d r rest ws → r.kind = 12#8 →
    let u := s.dequeued d rest
    (s.mode = .operate →
      exec (.leaveSetup d) s = (u.respond d r .wrongMode 0#16 0#16).thenWorks ws) ∧
    (s.mode = .setup → s.storeOp.isSome = true →
      exec (.leaveSetup d) s = (u.respond d r .wrongState 0#16 0#16).thenWorks ws) ∧
    (s.mode = .setup → s.storeOp = none →
      (∀ reason n, s.image.validate = some (reason, n) →
        exec (.leaveSetup d) s =
          (u.respond d r .mapInvalid (natWord reason) (natWord n)).thenWorks ws) ∧
      (s.image.validate = none →
        ∃ t : State, exec (.leaveSetup d) s =
            (t.respond d r .done s.image.signed 0#16).thenWorks ws ∧
          t.mode = .operate ∧ t.image = s.image ∧ t.signature = s.image.signed ∧
          (∀ l, (s.leg l).func = .forced → (t.leg l).IsOff) ∧
          (∀ i, s.image.Derives i (t.slot i) ∧ (t.slot i).perm = (t.formPermission i).1) ∧
          (∀ g, t.group g = { s.group g with periodStart := s.now }) ∧
          t.safety = { s.safety with
            mismatch := if s.safety.freshSeen then
              decide (s.safety.expectedSig ≠ s.image.signed) else s.safety.mismatch } ∧
          t.globalSet =
            (if s.safety.freshSeen = true ∧ s.safety.expectedSig ≠ s.image.signed then
              s.globalSet ||| 0x0020#16
            else s.globalSet) ∧
          t.nv = s.nv ∧ t.dc = s.dc ∧ t.cyc = s.cyc ∧ t.ports = s.ports ∧ t.drives = u.drives)))

/-- R183, R170: STORE is refused outside SETUP and while a STORE is in flight; taken, it copies the image
with its CRC, erases the completion mark, answers IN_PROGRESS and stays at the head of its queue. -/
def Obligations.StoreAnswers : Prop :=
  ∀ (s : State) (d : DriveLink) (r : Request) (rest : List Request) (ws : List Work),
    s.Serves d r rest ws → r.kind = 13#8 →
    let u := s.dequeued d rest
    (s.mode = .operate →
      exec (.store d) s = (u.respond d r .wrongMode 0#16 0#16).thenWorks ws) ∧
    (s.mode = .setup → s.storeOp.isSome = true →
      exec (.store d) s = (u.respond d r .wrongState 0#16 0#16).thenWorks ws) ∧
    (s.mode = .setup → s.storeOp = none →
      exec (.store d) s =
        (({ s with
            storeOp := some
              ⟨d, s.image.set 255 (crc 0xFFFF#16 (bytesOfWords (s.image.toList.take 255))), 0⟩
            nv := { s.nv with mark := false } }).setDrive d
          { s.drive d with
            response := ⟨r.kind, r.tag, 3#8, r.target, 0#16, 0#16⟩
            hold := .inFlight }).thenWorks ws)

/-- R68, R69: every answer of FORCE_LEG, and the drive it leaves; asking for both switches turns the leg
off and sets CROSS_REQUEST. -/
def Obligations.ForceLegAnswers : Prop :=
  ∀ (s : State) (d : DriveLink) (r : Request) (rest : List Request) (ws : List Work),
    s.Serves d r rest ws → r.kind = 14#8 →
    let u := s.dequeued d rest
    exec (.forceLeg d) s = State.thenWorks
      (if h : r.target.toNat < 24 then
        let l : LegId := ⟨r.target.toNat, h⟩
        let x := s.leg l
        let dt := s.image.dt (groupOf l)
        if s.mode ≠ .setup then u.respond d r .wrongMode (natWord x.drive.code) 0#16
        else if x.func ≠ .forced then u.respond d r .badValue (natWord x.func.code) 2#16
        else if r.arg1 ≠ 0#16 ∧ r.arg2 ≠ 0#16 then
          (({ u with globalSet := s.globalSet ||| 0x0800#16 }).setLeg l x.turnOff).respond d r
            .bothSwitches 0#16 0#16
        else if (r.arg1 ≠ 0#16 ∨ r.arg2 ≠ 0#16) ∧ s.safety.toffHigh = false then
          u.respond d r .noPermission (natWord x.drive.code) 1#16
        else if r.arg1 ≠ 0#16 then
          (u.setLeg l { x.setTarget dt s.now .high with drive := .high }).respond d r .done 2#16 0#16
        else if r.arg2 ≠ 0#16 then
          (u.setLeg l { x.setTarget dt s.now .low with drive := .low }).respond d r .done 3#16 0#16
        else (u.setLeg l x.turnOff).respond d r .done 0#16 0#16
      else u.respond d r .badValue 0#16 1#16) ws

/-- R169: a request whose kind is none of the table's is answered UNKNOWN_KIND with both values 0, and
nothing else changes. -/
def Obligations.UnknownKindAnswers : Prop :=
  ∀ (s : State) (d : DriveLink) (r : Request) (rest : List Request) (ws : List Work),
    s.Serves d r rest ws → 15 ≤ r.kind.toNat →
    exec (.unknownKind d) s =
      ((s.dequeued d rest).respond d r .unknownKind 0#16 0#16).thenWorks ws

/-! ### The current loop and the budget -/

/-- R41: the voltage limit of a period, its greatest value, its examples, and the V_e that applies: that
of the V_dc sample standing at the period event. -/
def Obligations.VoltageLimit : Prop :=
  (∀ ve vlim : Nat, uMax ve vlim = (((ve * 18919 / 32768) * vlim / 32768 : Nat) : Int)) ∧
  (∀ ve vlim : Nat, ve ≤ 32767 → vlim ≤ 32768 → uMax ve vlim ≤ 18918) ∧
  uMax 32767 32768 = 18918 ∧ (∀ ve : Nat, uMax ve 0 = 0) ∧ uMax 9600 30146 = 5098 ∧
  (∀ x : LoopIn, (loopCompute x).uMax = uMax (max x.vdc x.vUv) x.vlim) ∧
  (∀ (s : State) (g : GroupId) (i : SlotId),
    (loopCompute (s.loopInputs g i)).uMax = uMax (max s.dc.vdc s.image.vUv) (s.image.vlim i))

/-- R42: the pre-limit voltage of each axis, its proportional term and its candidate integrator together,
is clamped, d first to ±Umax and q to what d leaves; VSAT marks a clamped axis. The voltage command of
every computation then lies within ±Umax on d and within the circle of radius Umax. By the anti-windup
stage of R43 an axis that was clamped keeps its integrator while its error has the sign of its pre-limit
voltage, and every other integrator is its candidate within ±Umax·65536. -/
def Obligations.VoltageWithinCircle : Prop :=
  ∀ x : LoopIn,
    let o := loopCompute x
    let eD := o.id - o.iD
    let eQ := o.iq - o.iQ
    let candD := x.intD + x.kiD * eD
    let candQ := x.intQ + x.kiQ * eQ
    let preD := (x.kpD * eD + 128) / 256 + candD / 65536
    let preQ := (x.kpQ * eQ + 128) / 256 + candQ / 65536
    let sameSign : Int → Int → Prop := fun e u => (0 < e ∧ 0 < u) ∨ (e < 0 ∧ u < 0)
    let bound := o.uMax * 65536
    o.uD = max (-o.uMax) (min preD o.uMax) ∧
    (∃ uq : Int, 0 ≤ uq ∧ uq * uq ≤ o.uMax * o.uMax - o.uD * o.uD ∧
      o.uMax * o.uMax - o.uD * o.uD < (uq + 1) * (uq + 1) ∧
      o.uQ = max (-uq) (min preQ uq) ∧ o.vsat = decide (o.uMax < |preD| ∨ uq < |preQ|) ∧
      (uq < |preQ| ∧ sameSign eQ preQ → o.intQ = x.intQ) ∧
      (¬(uq < |preQ| ∧ sameSign eQ preQ) → o.intQ = max (-bound) (min candQ bound))) ∧
    (o.uMax < |preD| ∧ sameSign eD preD → o.intD = x.intD) ∧
    (¬(o.uMax < |preD| ∧ sameSign eD preD) → o.intD = max (-bound) (min candD bound)) ∧
    (|o.uD| = o.uMax → o.uQ = 0) ∧
    0 ≤ o.uMax ∧ |o.uD| ≤ o.uMax ∧ o.uD * o.uD + o.uQ * o.uQ ≤ o.uMax * o.uMax

/-- R34, R35: the d setpoint is clamped to ±L and the q setpoint to what the d setpoint leaves; the q
setpoint is then scaled by k when the slot motors and by kr when it regenerates. The conditioned
setpoints lie within the circle of radius L, and the q setpoint never exceeds the one handed over, for a
tandem follower the lead's, in magnitude. By R33 the limit L is the least of IMAX, L_temp and, under LIMIT,
L_perm, and TEMP_LIMITED marks L = L_temp below IMAX. -/
def Obligations.SetpointWithinLimit : Prop :=
  ∀ x : LoopIn, x.k ≤ 32768 → x.kr ≤ 32768 → 0 ≤ currentLimit x.iMax x.lTemp x.lPerm →
    let o := loopCompute x
    let l := currentLimit x.iMax x.lTemp x.lPerm
    (x.lPerm = none → l = min x.iMax x.lTemp) ∧
    (∀ p, x.lPerm = some p → l = min x.iMax (min x.lTemp p)) ∧
    o.tempLimited = decide (l = x.lTemp ∧ x.lTemp < x.iMax) ∧
    o.id = max (-l) (min x.idW l) ∧
    (∃ lq iq : Int, 0 ≤ lq ∧ lq * lq ≤ l * l - o.id * o.id ∧
      l * l - o.id * o.id < (lq + 1) * (lq + 1) ∧ iq = max (-lq) (min x.iqW lq) ∧
      o.iq = (if 0 < iq * x.omega then (iq * x.k).tdiv 32768
        else if iq * x.omega < 0 then (iq * x.kr).tdiv 32768 else iq) ∧
      o.regenLimited = decide (iq * x.omega < 0 ∧ x.kr < 32768)) ∧
    (l ≤ |x.idW| → |o.id| = l ∧ o.iq = 0) ∧
    |o.id| ≤ l ∧ o.id * o.id + o.iq * o.iq ≤ l * l ∧ |o.iq| ≤ |x.iqW| ∧
    (∀ (s : State) (g : GroupId) (i p : SlotId), (s.slot i).partner = some p →
      (s.slot i).anglePresent = true → (s.slot p).anglePresent = true →
      (s.loopInputs g i).iqW = (s.slot (s.leadOf i)).iqW)

/-- R36 to R38: the measured components are the Clarke and Park transforms of the phase currents with the sine
and cosine of the angle, of which the six low bits are not used. R44 to R50: the way from the limited voltage command back to the phases: the inverse Park and Clarke
transforms, the min-max injection, the base compare value, dead-time compensation, the clamp to 0..HP and
pulse dropping, and the DC-current sample from the injected voltages. Every compare value is 0, HP, or
within MP..HP-MP when MP is at most HP/4, as validation asks. -/
def Obligations.CompareValuesInRange : Prop :=
  ∀ x : LoopIn,
    let o := loopCompute x
    let ve : Int := max x.vdc x.vUv
    let sin := sinAu x.theta
    let cos := cosAu x.theta
    let iAl := max (-32768) (min (((2 * x.ia - x.ib - x.ic) * 10923 + 16384) / 32768) 32767)
    let iBe := max (-32768) (min (((x.ib - x.ic) * 18919 + 16384) / 32768) 32767)
    o.iD = max (-32768) (min ((iAl * cos + iBe * sin + 16384) / 32768) 32767) ∧
    o.iQ = max (-32768) (min ((-iAl * sin + iBe * cos + 16384) / 32768) 32767) ∧
    (∀ theta : BitVec 16, cosAu theta = sinAu (theta + 16384#16) ∧
      sinAu (theta + 32768#16) = -sinAu theta ∧
      sinAu theta = sinAu (BitVec.ofNat 16 (theta.toNat / 64 * 64))) ∧
    ([0, 64, 128, 256, 384, 512, 768].map fun k => sinAu (BitVec.ofNat 16 (64 * k))) =
      [0, 12539, 23170, 32767, 23170, 0, -32767] ∧
    let uAl := (o.uD * cos - o.uQ * sin + 16384) / 32768
    let uBe := (o.uD * sin + o.uQ * cos + 16384) / 32768
    let ub := (-16384 * uAl + 28378 * uBe + 16384) / 32768
    let uc := (-16384 * uAl - 28378 * uBe + 16384) / 32768
    let u0 := -((max uAl (max ub uc) + min uAl (min ub uc)) / 2)
    let value : Int → Int → Int := fun u i =>
      let base := (2 * (u + u0) + ve) * x.hp / (2 * ve)
      let comp :=
        if (x.dtcI : Int) ≤ i then base + x.dtcAmp
        else if i ≤ -(x.dtcI : Int) then base - x.dtcAmp else base
      let c := max 0 (min comp x.hp)
      if c < x.mp then 0 else if (x.hp : Int) - x.mp < c then x.hp else c
    (o.compare .u : Int) = value uAl x.ia ∧ (o.compare .v : Int) = value ub x.ib ∧
    (o.compare .w : Int) = value uc x.ic ∧
    o.j = max (-32768)
      (min (((uAl + u0) * x.ia + (ub + u0) * x.ib + (uc + u0) * x.ic).tdiv ve) 32767) ∧
    ∀ ph : Phase, 4 * x.mp ≤ x.hp →
      o.compare ph = 0 ∨ o.compare ph = x.hp ∨
        (x.mp ≤ o.compare ph ∧ o.compare ph ≤ x.hp - x.mp)

/-- R110: the target scale by case, and its range. -/
def Obligations.TargetScaleByCase : Prop :=
  ∀ d g : Nat,
    (d = 0 → targetScale d g = 32768) ∧ (d ≤ g → targetScale d g = 32768) ∧
    (0 < g → g < d → targetScale d g = 32768 * g / d) ∧ (g = 0 → 0 < d → targetScale d g = 0) ∧
    targetScale d g ≤ 32768

/-- R108, R109, R115: the second stage takes the tiers in order. A tier whose unmet demand fits in what
remains is served in full; of a tier that does not fit every slot gets the floor of its part, and the
tiers after it nothing, so that a tier is given something only when the lower ones were served in full.
After the two stages every share lies within its slot's demand, and together they do not exceed the
available current, whenever the first stage fits in it. -/
def Obligations.SharesWithinAvailable : Prop :=
  ∀ (xs : List (SlotId × Share)) (available : Nat),
    let rest := available - (xs.map fun p => p.2.given).sum
    let ys := secondStage xs rest
    (∃ left : Nat → Nat, left 0 = rest ∧
      (∀ tier, left (tier + 1) =
        left tier - (xs.map fun p => if p.2.tier = tier then p.2.demand - p.2.given else 0).sum) ∧
      (∀ t u, t < u → 0 < left u →
        (xs.map fun p => if p.2.tier = t then p.2.demand - p.2.given else 0).sum ≤ left t) ∧
      ys = xs.map fun p =>
        let want := p.2.demand - p.2.given
        let total :=
          (xs.map fun q => if q.2.tier = p.2.tier then q.2.demand - q.2.given else 0).sum
        (p.1, { p.2 with
          given := p.2.given +
            (if 3 < p.2.tier then 0
              else if total ≤ left p.2.tier then want else want * left p.2.tier / total) })) ∧
    ((∀ p ∈ xs, p.2.given ≤ p.2.demand) → (xs.map fun p => p.2.given).sum ≤ available →
      (∀ p ∈ ys, p.2.given ≤ p.2.demand) ∧ (ys.map fun p => p.2.given).sum ≤ available)

/-- R104 to R111: an allocation in OPERATE forms the average DC current and the demand of every
participating slot, the available current with the regeneration pool, the shares of the first stage and,
from what they leave, those of the second. At an applied scale of 0 the demand held is kept, also when the
slot regenerates, which is the model's choice where R106 and R107 meet (log 32). It gives every participating slot its demand and a scale that
falls to the target of its own share at once, or rises toward it by at most K_RISE, and leaves every other
slot alone. -/
def Obligations.AllocationMovesScales : Prop :=
  ∀ s : State, s.mode = .operate →
    let t := perform .allocate s
    let part : List SlotId := (List.finRange 8).filter fun i => (s.slot i).state.isRunning
    let avg : SlotId → Int := fun i =>
      if (s.slot i).handed.2 = 0 then 0 else (s.slot i).handed.1.tdiv (s.slot i).handed.2
    let demand : SlotId → Nat := fun i =>
      if s.appliedScale i = 0 then (s.slot i).demand
      else min 32767 ((max (avg i) 0).toNat * 32768 / s.appliedScale i)
    let available : Nat := s.image.iIn + (part.map fun i => (max (-(avg i)) 0).toNat).sum
    let first : List (SlotId × Share) := part.map fun i =>
      (i, { tier := s.image.tier i, resv := (s.slot i).resv, demand := demand i
            k := (s.slot i).kScale, given := min (demand i) (s.slot i).resv })
    s.shares = secondStage first (available - (first.map fun p => p.2.given).sum) ∧
    (∀ i, (s.slot i).state.isRunning = true →
      (∃ share, (i, share) ∈ s.shares) ∧
      ∀ share, (i, share) ∈ s.shares →
        let target := targetScale (demand i) share.given
        t.slot i = { s.slot i with
          demand := demand i
          kScale := if target < (s.slot i).kScale then target
            else min target ((s.slot i).kScale + s.image.kRise) }) ∧
    (∀ i, (s.slot i).state.isRunning = false → t.slot i = s.slot i) ∧
    { t with slots := s.slots } = s

/-! ### What every step keeps -/

/-- R56: no step ever has both switch commands of a leg on, nor one that its target does not call for. -/
def Obligations.StepKeepsInterlock : Prop :=
  ∀ s t : State, s.Interlocked → step s = .next t →
    t.Interlocked ∧ ∀ l, ¬((t.leg l).gh = true ∧ (t.leg l).gl = true)

/-- R13, R65, R145: while the accepted TOFF level is LOW no slot is active and no PHASE or FORCED leg is
driven, after every step. -/
def Obligations.StepKeepsTorqueOff : Prop :=
  ∀ s t : State, s.TorqueOffHolds → step s = .next t → t.TorqueOffHolds

/-- R4, R13, R25, R138: a slot has an owner exactly when it is not PARKED; outside OPERATE every slot is
PARKED with effective permission OFF, after every step. R14: the stop counter of a slot that is not in
STOPPING stands at 0. R12, R18, R138: no slot is in CALIBRATING or RUN under STOP or OFF, nor in STOPPING
under OFF; partners name each other and carry one permission. R19: the two are in one state whenever either
is active, and their stop counters go together. -/
def Obligations.StepKeepsSlotRules : Prop :=
  ∀ s t : State, s.Owned → s.ParkedOutsideOperate → step s = .next t →
    t.Owned ∧ t.ParkedOutsideOperate ∧ (s.StopCountsRest → t.StopCountsRest) ∧
      (s.PermissionsHold → t.PermissionsHold ∧ (s.PairsTogether → t.PairsTogether))

/-- R98, R100, R106, R111, R163, R168: scales and demands stay in range, no queue exceeds two requests and
no link keeps more than 255 bytes, after every step. R100, R101, R7: the reservations of all slots together
do not exceed I_IN, and a PARKED slot has none. -/
def Obligations.StepKeepsRanges : Prop :=
  ∀ s t : State, step s = .next t →
    (s.ScalesInRange → s.LinksInRange → t.ScalesInRange ∧ t.LinksInRange) ∧
    (s.Owned → s.ParkedOutsideOperate → s.BudgetHolds → t.BudgetHolds)

/-- The state after reset is safe. -/
def Obligations.ResetIsSafe : Prop := State.reset.Safe
end

