-- ==== Sys2Proof/Laws/State.lean ====
section
/-! SUPPORT. The fields of State after each of its updates, one lemma a field, and the records read back
after a record has been replaced. -/

namespace Sys2Proof.Machine

variable (s : State)

/-! ### setSlot -/

@[simp] theorem State.setSlot_legs (i : SlotId) (x : Slot) : (s.setSlot i x).legs = s.legs := rfl
@[simp] theorem State.setSlot_groups (i : SlotId) (x : Slot) : (s.setSlot i x).groups = s.groups := rfl
@[simp] theorem State.setSlot_dc (i : SlotId) (x : Slot) : (s.setSlot i x).dc = s.dc := rfl
@[simp] theorem State.setSlot_cyc (i : SlotId) (x : Slot) : (s.setSlot i x).cyc = s.cyc := rfl
@[simp] theorem State.setSlot_safety (i : SlotId) (x : Slot) : (s.setSlot i x).safety = s.safety := rfl
@[simp] theorem State.setSlot_ports (i : SlotId) (x : Slot) : (s.setSlot i x).ports = s.ports := rfl
@[simp] theorem State.setSlot_drives (i : SlotId) (x : Slot) : (s.setSlot i x).drives = s.drives := rfl
@[simp] theorem State.setSlot_mode (i : SlotId) (x : Slot) : (s.setSlot i x).mode = s.mode := rfl
@[simp] theorem State.setSlot_image (i : SlotId) (x : Slot) : (s.setSlot i x).image = s.image := rfl
@[simp] theorem State.setSlot_nv (i : SlotId) (x : Slot) : (s.setSlot i x).nv = s.nv := rfl
@[simp] theorem State.setSlot_loadBuf (i : SlotId) (x : Slot) : (s.setSlot i x).loadBuf = s.loadBuf := rfl
@[simp] theorem State.setSlot_loadPage (i : SlotId) (x : Slot) : (s.setSlot i x).loadPage = s.loadPage := rfl
@[simp] theorem State.setSlot_signature (i : SlotId) (x : Slot) : (s.setSlot i x).signature = s.signature := rfl
@[simp] theorem State.setSlot_imageBad (i : SlotId) (x : Slot) : (s.setSlot i x).imageBad = s.imageBad := rfl
@[simp] theorem State.setSlot_storeOp (i : SlotId) (x : Slot) : (s.setSlot i x).storeOp = s.storeOp := rfl
@[simp] theorem State.setSlot_globalSet (i : SlotId) (x : Slot) : (s.setSlot i x).globalSet = s.globalSet := rfl
@[simp] theorem State.setSlot_now (i : SlotId) (x : Slot) : (s.setSlot i x).now = s.now := rfl
@[simp] theorem State.setSlot_lastFast (i : SlotId) (x : Slot) : (s.setSlot i x).lastFast = s.lastFast := rfl
@[simp] theorem State.setSlot_lastVdc (i : SlotId) (x : Slot) : (s.setSlot i x).lastVdc = s.lastVdc := rfl
@[simp] theorem State.setSlot_lastTemp (i : SlotId) (x : Slot) : (s.setSlot i x).lastTemp = s.lastTemp := rfl
@[simp] theorem State.setSlot_agenda (i : SlotId) (x : Slot) : (s.setSlot i x).agenda = s.agenda := rfl
@[simp] theorem State.setSlot_pending (i : SlotId) (x : Slot) : (s.setSlot i x).pending = s.pending := rfl
@[simp] theorem State.setSlot_leg (i : SlotId) (x : Slot) (k : LegId) : (s.setSlot i x).leg k = s.leg k := rfl
@[simp] theorem State.setSlot_group (i : SlotId) (x : Slot) (k : GroupId) : (s.setSlot i x).group k = s.group k := rfl
@[simp] theorem State.setSlot_port (i : SlotId) (x : Slot) (k : Link) : (s.setSlot i x).port k = s.port k := rfl
@[simp] theorem State.setSlot_drive (i : SlotId) (x : Slot) (k : DriveLink) : (s.setSlot i x).drive k = s.drive k := rfl

/-! ### setLeg -/

@[simp] theorem State.setLeg_slots (i : LegId) (x : Leg) : (s.setLeg i x).slots = s.slots := rfl
@[simp] theorem State.setLeg_groups (i : LegId) (x : Leg) : (s.setLeg i x).groups = s.groups := rfl
@[simp] theorem State.setLeg_dc (i : LegId) (x : Leg) : (s.setLeg i x).dc = s.dc := rfl
@[simp] theorem State.setLeg_cyc (i : LegId) (x : Leg) : (s.setLeg i x).cyc = s.cyc := rfl
@[simp] theorem State.setLeg_safety (i : LegId) (x : Leg) : (s.setLeg i x).safety = s.safety := rfl
@[simp] theorem State.setLeg_ports (i : LegId) (x : Leg) : (s.setLeg i x).ports = s.ports := rfl
@[simp] theorem State.setLeg_drives (i : LegId) (x : Leg) : (s.setLeg i x).drives = s.drives := rfl
@[simp] theorem State.setLeg_mode (i : LegId) (x : Leg) : (s.setLeg i x).mode = s.mode := rfl
@[simp] theorem State.setLeg_image (i : LegId) (x : Leg) : (s.setLeg i x).image = s.image := rfl
@[simp] theorem State.setLeg_nv (i : LegId) (x : Leg) : (s.setLeg i x).nv = s.nv := rfl
@[simp] theorem State.setLeg_loadBuf (i : LegId) (x : Leg) : (s.setLeg i x).loadBuf = s.loadBuf := rfl
@[simp] theorem State.setLeg_loadPage (i : LegId) (x : Leg) : (s.setLeg i x).loadPage = s.loadPage := rfl
@[simp] theorem State.setLeg_signature (i : LegId) (x : Leg) : (s.setLeg i x).signature = s.signature := rfl
@[simp] theorem State.setLeg_imageBad (i : LegId) (x : Leg) : (s.setLeg i x).imageBad = s.imageBad := rfl
@[simp] theorem State.setLeg_storeOp (i : LegId) (x : Leg) : (s.setLeg i x).storeOp = s.storeOp := rfl
@[simp] theorem State.setLeg_globalSet (i : LegId) (x : Leg) : (s.setLeg i x).globalSet = s.globalSet := rfl
@[simp] theorem State.setLeg_now (i : LegId) (x : Leg) : (s.setLeg i x).now = s.now := rfl
@[simp] theorem State.setLeg_lastFast (i : LegId) (x : Leg) : (s.setLeg i x).lastFast = s.lastFast := rfl
@[simp] theorem State.setLeg_lastVdc (i : LegId) (x : Leg) : (s.setLeg i x).lastVdc = s.lastVdc := rfl
@[simp] theorem State.setLeg_lastTemp (i : LegId) (x : Leg) : (s.setLeg i x).lastTemp = s.lastTemp := rfl
@[simp] theorem State.setLeg_agenda (i : LegId) (x : Leg) : (s.setLeg i x).agenda = s.agenda := rfl
@[simp] theorem State.setLeg_pending (i : LegId) (x : Leg) : (s.setLeg i x).pending = s.pending := rfl
@[simp] theorem State.setLeg_slot (i : LegId) (x : Leg) (k : SlotId) : (s.setLeg i x).slot k = s.slot k := rfl
@[simp] theorem State.setLeg_group (i : LegId) (x : Leg) (k : GroupId) : (s.setLeg i x).group k = s.group k := rfl
@[simp] theorem State.setLeg_port (i : LegId) (x : Leg) (k : Link) : (s.setLeg i x).port k = s.port k := rfl
@[simp] theorem State.setLeg_drive (i : LegId) (x : Leg) (k : DriveLink) : (s.setLeg i x).drive k = s.drive k := rfl

/-! ### setGroup -/

@[simp] theorem State.setGroup_slots (i : GroupId) (x : Group) : (s.setGroup i x).slots = s.slots := rfl
@[simp] theorem State.setGroup_legs (i : GroupId) (x : Group) : (s.setGroup i x).legs = s.legs := rfl
@[simp] theorem State.setGroup_dc (i : GroupId) (x : Group) : (s.setGroup i x).dc = s.dc := rfl
@[simp] theorem State.setGroup_cyc (i : GroupId) (x : Group) : (s.setGroup i x).cyc = s.cyc := rfl
@[simp] theorem State.setGroup_safety (i : GroupId) (x : Group) : (s.setGroup i x).safety = s.safety := rfl
@[simp] theorem State.setGroup_ports (i : GroupId) (x : Group) : (s.setGroup i x).ports = s.ports := rfl
@[simp] theorem State.setGroup_drives (i : GroupId) (x : Group) : (s.setGroup i x).drives = s.drives := rfl
@[simp] theorem State.setGroup_mode (i : GroupId) (x : Group) : (s.setGroup i x).mode = s.mode := rfl
@[simp] theorem State.setGroup_image (i : GroupId) (x : Group) : (s.setGroup i x).image = s.image := rfl
@[simp] theorem State.setGroup_nv (i : GroupId) (x : Group) : (s.setGroup i x).nv = s.nv := rfl
@[simp] theorem State.setGroup_loadBuf (i : GroupId) (x : Group) : (s.setGroup i x).loadBuf = s.loadBuf := rfl
@[simp] theorem State.setGroup_loadPage (i : GroupId) (x : Group) : (s.setGroup i x).loadPage = s.loadPage := rfl
@[simp] theorem State.setGroup_signature (i : GroupId) (x : Group) : (s.setGroup i x).signature = s.signature := rfl
@[simp] theorem State.setGroup_imageBad (i : GroupId) (x : Group) : (s.setGroup i x).imageBad = s.imageBad := rfl
@[simp] theorem State.setGroup_storeOp (i : GroupId) (x : Group) : (s.setGroup i x).storeOp = s.storeOp := rfl
@[simp] theorem State.setGroup_globalSet (i : GroupId) (x : Group) : (s.setGroup i x).globalSet = s.globalSet := rfl
@[simp] theorem State.setGroup_now (i : GroupId) (x : Group) : (s.setGroup i x).now = s.now := rfl
@[simp] theorem State.setGroup_lastFast (i : GroupId) (x : Group) : (s.setGroup i x).lastFast = s.lastFast := rfl
@[simp] theorem State.setGroup_lastVdc (i : GroupId) (x : Group) : (s.setGroup i x).lastVdc = s.lastVdc := rfl
@[simp] theorem State.setGroup_lastTemp (i : GroupId) (x : Group) : (s.setGroup i x).lastTemp = s.lastTemp := rfl
@[simp] theorem State.setGroup_agenda (i : GroupId) (x : Group) : (s.setGroup i x).agenda = s.agenda := rfl
@[simp] theorem State.setGroup_pending (i : GroupId) (x : Group) : (s.setGroup i x).pending = s.pending := rfl
@[simp] theorem State.setGroup_slot (i : GroupId) (x : Group) (k : SlotId) : (s.setGroup i x).slot k = s.slot k := rfl
@[simp] theorem State.setGroup_leg (i : GroupId) (x : Group) (k : LegId) : (s.setGroup i x).leg k = s.leg k := rfl
@[simp] theorem State.setGroup_port (i : GroupId) (x : Group) (k : Link) : (s.setGroup i x).port k = s.port k := rfl
@[simp] theorem State.setGroup_drive (i : GroupId) (x : Group) (k : DriveLink) : (s.setGroup i x).drive k = s.drive k := rfl

/-! ### setPort -/

@[simp] theorem State.setPort_slots (i : Link) (x : Port) : (s.setPort i x).slots = s.slots := rfl
@[simp] theorem State.setPort_legs (i : Link) (x : Port) : (s.setPort i x).legs = s.legs := rfl
@[simp] theorem State.setPort_groups (i : Link) (x : Port) : (s.setPort i x).groups = s.groups := rfl
@[simp] theorem State.setPort_dc (i : Link) (x : Port) : (s.setPort i x).dc = s.dc := rfl
@[simp] theorem State.setPort_cyc (i : Link) (x : Port) : (s.setPort i x).cyc = s.cyc := rfl
@[simp] theorem State.setPort_safety (i : Link) (x : Port) : (s.setPort i x).safety = s.safety := rfl
@[simp] theorem State.setPort_drives (i : Link) (x : Port) : (s.setPort i x).drives = s.drives := rfl
@[simp] theorem State.setPort_mode (i : Link) (x : Port) : (s.setPort i x).mode = s.mode := rfl
@[simp] theorem State.setPort_image (i : Link) (x : Port) : (s.setPort i x).image = s.image := rfl
@[simp] theorem State.setPort_nv (i : Link) (x : Port) : (s.setPort i x).nv = s.nv := rfl
@[simp] theorem State.setPort_loadBuf (i : Link) (x : Port) : (s.setPort i x).loadBuf = s.loadBuf := rfl
@[simp] theorem State.setPort_loadPage (i : Link) (x : Port) : (s.setPort i x).loadPage = s.loadPage := rfl
@[simp] theorem State.setPort_signature (i : Link) (x : Port) : (s.setPort i x).signature = s.signature := rfl
@[simp] theorem State.setPort_imageBad (i : Link) (x : Port) : (s.setPort i x).imageBad = s.imageBad := rfl
@[simp] theorem State.setPort_storeOp (i : Link) (x : Port) : (s.setPort i x).storeOp = s.storeOp := rfl
@[simp] theorem State.setPort_globalSet (i : Link) (x : Port) : (s.setPort i x).globalSet = s.globalSet := rfl
@[simp] theorem State.setPort_now (i : Link) (x : Port) : (s.setPort i x).now = s.now := rfl
@[simp] theorem State.setPort_lastFast (i : Link) (x : Port) : (s.setPort i x).lastFast = s.lastFast := rfl
@[simp] theorem State.setPort_lastVdc (i : Link) (x : Port) : (s.setPort i x).lastVdc = s.lastVdc := rfl
@[simp] theorem State.setPort_lastTemp (i : Link) (x : Port) : (s.setPort i x).lastTemp = s.lastTemp := rfl
@[simp] theorem State.setPort_agenda (i : Link) (x : Port) : (s.setPort i x).agenda = s.agenda := rfl
@[simp] theorem State.setPort_pending (i : Link) (x : Port) : (s.setPort i x).pending = s.pending := rfl
@[simp] theorem State.setPort_slot (i : Link) (x : Port) (k : SlotId) : (s.setPort i x).slot k = s.slot k := rfl
@[simp] theorem State.setPort_leg (i : Link) (x : Port) (k : LegId) : (s.setPort i x).leg k = s.leg k := rfl
@[simp] theorem State.setPort_group (i : Link) (x : Port) (k : GroupId) : (s.setPort i x).group k = s.group k := rfl
@[simp] theorem State.setPort_drive (i : Link) (x : Port) (k : DriveLink) : (s.setPort i x).drive k = s.drive k := rfl

/-! ### setDrive -/

@[simp] theorem State.setDrive_slots (i : DriveLink) (x : DriveRec) : (s.setDrive i x).slots = s.slots := rfl
@[simp] theorem State.setDrive_legs (i : DriveLink) (x : DriveRec) : (s.setDrive i x).legs = s.legs := rfl
@[simp] theorem State.setDrive_groups (i : DriveLink) (x : DriveRec) : (s.setDrive i x).groups = s.groups := rfl
@[simp] theorem State.setDrive_dc (i : DriveLink) (x : DriveRec) : (s.setDrive i x).dc = s.dc := rfl
@[simp] theorem State.setDrive_cyc (i : DriveLink) (x : DriveRec) : (s.setDrive i x).cyc = s.cyc := rfl
@[simp] theorem State.setDrive_safety (i : DriveLink) (x : DriveRec) : (s.setDrive i x).safety = s.safety := rfl
@[simp] theorem State.setDrive_ports (i : DriveLink) (x : DriveRec) : (s.setDrive i x).ports = s.ports := rfl
@[simp] theorem State.setDrive_mode (i : DriveLink) (x : DriveRec) : (s.setDrive i x).mode = s.mode := rfl
@[simp] theorem State.setDrive_image (i : DriveLink) (x : DriveRec) : (s.setDrive i x).image = s.image := rfl
@[simp] theorem State.setDrive_nv (i : DriveLink) (x : DriveRec) : (s.setDrive i x).nv = s.nv := rfl
@[simp] theorem State.setDrive_loadBuf (i : DriveLink) (x : DriveRec) : (s.setDrive i x).loadBuf = s.loadBuf := rfl
@[simp] theorem State.setDrive_loadPage (i : DriveLink) (x : DriveRec) : (s.setDrive i x).loadPage = s.loadPage := rfl
@[simp] theorem State.setDrive_signature (i : DriveLink) (x : DriveRec) : (s.setDrive i x).signature = s.signature := rfl
@[simp] theorem State.setDrive_imageBad (i : DriveLink) (x : DriveRec) : (s.setDrive i x).imageBad = s.imageBad := rfl
@[simp] theorem State.setDrive_storeOp (i : DriveLink) (x : DriveRec) : (s.setDrive i x).storeOp = s.storeOp := rfl
@[simp] theorem State.setDrive_globalSet (i : DriveLink) (x : DriveRec) : (s.setDrive i x).globalSet = s.globalSet := rfl
@[simp] theorem State.setDrive_now (i : DriveLink) (x : DriveRec) : (s.setDrive i x).now = s.now := rfl
@[simp] theorem State.setDrive_lastFast (i : DriveLink) (x : DriveRec) : (s.setDrive i x).lastFast = s.lastFast := rfl
@[simp] theorem State.setDrive_lastVdc (i : DriveLink) (x : DriveRec) : (s.setDrive i x).lastVdc = s.lastVdc := rfl
@[simp] theorem State.setDrive_lastTemp (i : DriveLink) (x : DriveRec) : (s.setDrive i x).lastTemp = s.lastTemp := rfl
@[simp] theorem State.setDrive_agenda (i : DriveLink) (x : DriveRec) : (s.setDrive i x).agenda = s.agenda := rfl
@[simp] theorem State.setDrive_pending (i : DriveLink) (x : DriveRec) : (s.setDrive i x).pending = s.pending := rfl
@[simp] theorem State.setDrive_slot (i : DriveLink) (x : DriveRec) (k : SlotId) : (s.setDrive i x).slot k = s.slot k := rfl
@[simp] theorem State.setDrive_leg (i : DriveLink) (x : DriveRec) (k : LegId) : (s.setDrive i x).leg k = s.leg k := rfl
@[simp] theorem State.setDrive_group (i : DriveLink) (x : DriveRec) (k : GroupId) : (s.setDrive i x).group k = s.group k := rfl
@[simp] theorem State.setDrive_port (i : DriveLink) (x : DriveRec) (k : Link) : (s.setDrive i x).port k = s.port k := rfl

/-! ### mapSlots -/

@[simp] theorem State.mapSlots_legs (f : SlotId → Slot → Slot) : (s.mapSlots f).legs = s.legs := by simp only [State.mapSlots]
@[simp] theorem State.mapSlots_groups (f : SlotId → Slot → Slot) : (s.mapSlots f).groups = s.groups := by simp only [State.mapSlots]
@[simp] theorem State.mapSlots_dc (f : SlotId → Slot → Slot) : (s.mapSlots f).dc = s.dc := by simp only [State.mapSlots]
@[simp] theorem State.mapSlots_cyc (f : SlotId → Slot → Slot) : (s.mapSlots f).cyc = s.cyc := by simp only [State.mapSlots]
@[simp] theorem State.mapSlots_safety (f : SlotId → Slot → Slot) : (s.mapSlots f).safety = s.safety := by simp only [State.mapSlots]
@[simp] theorem State.mapSlots_ports (f : SlotId → Slot → Slot) : (s.mapSlots f).ports = s.ports := by simp only [State.mapSlots]
@[simp] theorem State.mapSlots_drives (f : SlotId → Slot → Slot) : (s.mapSlots f).drives = s.drives := by simp only [State.mapSlots]
@[simp] theorem State.mapSlots_mode (f : SlotId → Slot → Slot) : (s.mapSlots f).mode = s.mode := by simp only [State.mapSlots]
@[simp] theorem State.mapSlots_image (f : SlotId → Slot → Slot) : (s.mapSlots f).image = s.image := by simp only [State.mapSlots]
@[simp] theorem State.mapSlots_nv (f : SlotId → Slot → Slot) : (s.mapSlots f).nv = s.nv := by simp only [State.mapSlots]
@[simp] theorem State.mapSlots_loadBuf (f : SlotId → Slot → Slot) : (s.mapSlots f).loadBuf = s.loadBuf := by simp only [State.mapSlots]
@[simp] theorem State.mapSlots_loadPage (f : SlotId → Slot → Slot) : (s.mapSlots f).loadPage = s.loadPage := by simp only [State.mapSlots]
@[simp] theorem State.mapSlots_signature (f : SlotId → Slot → Slot) : (s.mapSlots f).signature = s.signature := by simp only [State.mapSlots]
@[simp] theorem State.mapSlots_imageBad (f : SlotId → Slot → Slot) : (s.mapSlots f).imageBad = s.imageBad := by simp only [State.mapSlots]
@[simp] theorem State.mapSlots_storeOp (f : SlotId → Slot → Slot) : (s.mapSlots f).storeOp = s.storeOp := by simp only [State.mapSlots]
@[simp] theorem State.mapSlots_globalSet (f : SlotId → Slot → Slot) : (s.mapSlots f).globalSet = s.globalSet := by simp only [State.mapSlots]
@[simp] theorem State.mapSlots_now (f : SlotId → Slot → Slot) : (s.mapSlots f).now = s.now := by simp only [State.mapSlots]
@[simp] theorem State.mapSlots_lastFast (f : SlotId → Slot → Slot) : (s.mapSlots f).lastFast = s.lastFast := by simp only [State.mapSlots]
@[simp] theorem State.mapSlots_lastVdc (f : SlotId → Slot → Slot) : (s.mapSlots f).lastVdc = s.lastVdc := by simp only [State.mapSlots]
@[simp] theorem State.mapSlots_lastTemp (f : SlotId → Slot → Slot) : (s.mapSlots f).lastTemp = s.lastTemp := by simp only [State.mapSlots]
@[simp] theorem State.mapSlots_agenda (f : SlotId → Slot → Slot) : (s.mapSlots f).agenda = s.agenda := by simp only [State.mapSlots]
@[simp] theorem State.mapSlots_pending (f : SlotId → Slot → Slot) : (s.mapSlots f).pending = s.pending := by simp only [State.mapSlots]
@[simp] theorem State.mapSlots_leg (f : SlotId → Slot → Slot) (k : LegId) : (s.mapSlots f).leg k = s.leg k := by simp only [State.mapSlots, State.leg]
@[simp] theorem State.mapSlots_group (f : SlotId → Slot → Slot) (k : GroupId) : (s.mapSlots f).group k = s.group k := by simp only [State.mapSlots, State.group]
@[simp] theorem State.mapSlots_port (f : SlotId → Slot → Slot) (k : Link) : (s.mapSlots f).port k = s.port k := by simp only [State.mapSlots, State.port]
@[simp] theorem State.mapSlots_drive (f : SlotId → Slot → Slot) (k : DriveLink) : (s.mapSlots f).drive k = s.drive k := by simp only [State.mapSlots, State.drive]

/-! ### mapLegs -/

@[simp] theorem State.mapLegs_slots (f : LegId → Leg → Leg) : (s.mapLegs f).slots = s.slots := by simp only [State.mapLegs]
@[simp] theorem State.mapLegs_groups (f : LegId → Leg → Leg) : (s.mapLegs f).groups = s.groups := by simp only [State.mapLegs]
@[simp] theorem State.mapLegs_dc (f : LegId → Leg → Leg) : (s.mapLegs f).dc = s.dc := by simp only [State.mapLegs]
@[simp] theorem State.mapLegs_cyc (f : LegId → Leg → Leg) : (s.mapLegs f).cyc = s.cyc := by simp only [State.mapLegs]
@[simp] theorem State.mapLegs_safety (f : LegId → Leg → Leg) : (s.mapLegs f).safety = s.safety := by simp only [State.mapLegs]
@[simp] theorem State.mapLegs_ports (f : LegId → Leg → Leg) : (s.mapLegs f).ports = s.ports := by simp only [State.mapLegs]
@[simp] theorem State.mapLegs_drives (f : LegId → Leg → Leg) : (s.mapLegs f).drives = s.drives := by simp only [State.mapLegs]
@[simp] theorem State.mapLegs_mode (f : LegId → Leg → Leg) : (s.mapLegs f).mode = s.mode := by simp only [State.mapLegs]
@[simp] theorem State.mapLegs_image (f : LegId → Leg → Leg) : (s.mapLegs f).image = s.image := by simp only [State.mapLegs]
@[simp] theorem State.mapLegs_nv (f : LegId → Leg → Leg) : (s.mapLegs f).nv = s.nv := by simp only [State.mapLegs]
@[simp] theorem State.mapLegs_loadBuf (f : LegId → Leg → Leg) : (s.mapLegs f).loadBuf = s.loadBuf := by simp only [State.mapLegs]
@[simp] theorem State.mapLegs_loadPage (f : LegId → Leg → Leg) : (s.mapLegs f).loadPage = s.loadPage := by simp only [State.mapLegs]
@[simp] theorem State.mapLegs_signature (f : LegId → Leg → Leg) : (s.mapLegs f).signature = s.signature := by simp only [State.mapLegs]
@[simp] theorem State.mapLegs_imageBad (f : LegId → Leg → Leg) : (s.mapLegs f).imageBad = s.imageBad := by simp only [State.mapLegs]
@[simp] theorem State.mapLegs_storeOp (f : LegId → Leg → Leg) : (s.mapLegs f).storeOp = s.storeOp := by simp only [State.mapLegs]
@[simp] theorem State.mapLegs_globalSet (f : LegId → Leg → Leg) : (s.mapLegs f).globalSet = s.globalSet := by simp only [State.mapLegs]
@[simp] theorem State.mapLegs_now (f : LegId → Leg → Leg) : (s.mapLegs f).now = s.now := by simp only [State.mapLegs]
@[simp] theorem State.mapLegs_lastFast (f : LegId → Leg → Leg) : (s.mapLegs f).lastFast = s.lastFast := by simp only [State.mapLegs]
@[simp] theorem State.mapLegs_lastVdc (f : LegId → Leg → Leg) : (s.mapLegs f).lastVdc = s.lastVdc := by simp only [State.mapLegs]
@[simp] theorem State.mapLegs_lastTemp (f : LegId → Leg → Leg) : (s.mapLegs f).lastTemp = s.lastTemp := by simp only [State.mapLegs]
@[simp] theorem State.mapLegs_agenda (f : LegId → Leg → Leg) : (s.mapLegs f).agenda = s.agenda := by simp only [State.mapLegs]
@[simp] theorem State.mapLegs_pending (f : LegId → Leg → Leg) : (s.mapLegs f).pending = s.pending := by simp only [State.mapLegs]
@[simp] theorem State.mapLegs_slot (f : LegId → Leg → Leg) (k : SlotId) : (s.mapLegs f).slot k = s.slot k := by simp only [State.mapLegs, State.slot]
@[simp] theorem State.mapLegs_group (f : LegId → Leg → Leg) (k : GroupId) : (s.mapLegs f).group k = s.group k := by simp only [State.mapLegs, State.group]
@[simp] theorem State.mapLegs_port (f : LegId → Leg → Leg) (k : Link) : (s.mapLegs f).port k = s.port k := by simp only [State.mapLegs, State.port]
@[simp] theorem State.mapLegs_drive (f : LegId → Leg → Leg) (k : DriveLink) : (s.mapLegs f).drive k = s.drive k := by simp only [State.mapLegs, State.drive]

/-! ### mapGroups -/

@[simp] theorem State.mapGroups_slots (f : GroupId → Group → Group) : (s.mapGroups f).slots = s.slots := by simp only [State.mapGroups]
@[simp] theorem State.mapGroups_legs (f : GroupId → Group → Group) : (s.mapGroups f).legs = s.legs := by simp only [State.mapGroups]
@[simp] theorem State.mapGroups_dc (f : GroupId → Group → Group) : (s.mapGroups f).dc = s.dc := by simp only [State.mapGroups]
@[simp] theorem State.mapGroups_cyc (f : GroupId → Group → Group) : (s.mapGroups f).cyc = s.cyc := by simp only [State.mapGroups]
@[simp] theorem State.mapGroups_safety (f : GroupId → Group → Group) : (s.mapGroups f).safety = s.safety := by simp only [State.mapGroups]
@[simp] theorem State.mapGroups_ports (f : GroupId → Group → Group) : (s.mapGroups f).ports = s.ports := by simp only [State.mapGroups]
@[simp] theorem State.mapGroups_drives (f : GroupId → Group → Group) : (s.mapGroups f).drives = s.drives := by simp only [State.mapGroups]
@[simp] theorem State.mapGroups_mode (f : GroupId → Group → Group) : (s.mapGroups f).mode = s.mode := by simp only [State.mapGroups]
@[simp] theorem State.mapGroups_image (f : GroupId → Group → Group) : (s.mapGroups f).image = s.image := by simp only [State.mapGroups]
@[simp] theorem State.mapGroups_nv (f : GroupId → Group → Group) : (s.mapGroups f).nv = s.nv := by simp only [State.mapGroups]
@[simp] theorem State.mapGroups_loadBuf (f : GroupId → Group → Group) : (s.mapGroups f).loadBuf = s.loadBuf := by simp only [State.mapGroups]
@[simp] theorem State.mapGroups_loadPage (f : GroupId → Group → Group) : (s.mapGroups f).loadPage = s.loadPage := by simp only [State.mapGroups]
@[simp] theorem State.mapGroups_signature (f : GroupId → Group → Group) : (s.mapGroups f).signature = s.signature := by simp only [State.mapGroups]
@[simp] theorem State.mapGroups_imageBad (f : GroupId → Group → Group) : (s.mapGroups f).imageBad = s.imageBad := by simp only [State.mapGroups]
@[simp] theorem State.mapGroups_storeOp (f : GroupId → Group → Group) : (s.mapGroups f).storeOp = s.storeOp := by simp only [State.mapGroups]
@[simp] theorem State.mapGroups_globalSet (f : GroupId → Group → Group) : (s.mapGroups f).globalSet = s.globalSet := by simp only [State.mapGroups]
@[simp] theorem State.mapGroups_now (f : GroupId → Group → Group) : (s.mapGroups f).now = s.now := by simp only [State.mapGroups]
@[simp] theorem State.mapGroups_lastFast (f : GroupId → Group → Group) : (s.mapGroups f).lastFast = s.lastFast := by simp only [State.mapGroups]
@[simp] theorem State.mapGroups_lastVdc (f : GroupId → Group → Group) : (s.mapGroups f).lastVdc = s.lastVdc := by simp only [State.mapGroups]
@[simp] theorem State.mapGroups_lastTemp (f : GroupId → Group → Group) : (s.mapGroups f).lastTemp = s.lastTemp := by simp only [State.mapGroups]
@[simp] theorem State.mapGroups_agenda (f : GroupId → Group → Group) : (s.mapGroups f).agenda = s.agenda := by simp only [State.mapGroups]
@[simp] theorem State.mapGroups_pending (f : GroupId → Group → Group) : (s.mapGroups f).pending = s.pending := by simp only [State.mapGroups]
@[simp] theorem State.mapGroups_slot (f : GroupId → Group → Group) (k : SlotId) : (s.mapGroups f).slot k = s.slot k := by simp only [State.mapGroups, State.slot]
@[simp] theorem State.mapGroups_leg (f : GroupId → Group → Group) (k : LegId) : (s.mapGroups f).leg k = s.leg k := by simp only [State.mapGroups, State.leg]
@[simp] theorem State.mapGroups_port (f : GroupId → Group → Group) (k : Link) : (s.mapGroups f).port k = s.port k := by simp only [State.mapGroups, State.port]
@[simp] theorem State.mapGroups_drive (f : GroupId → Group → Group) (k : DriveLink) : (s.mapGroups f).drive k = s.drive k := by simp only [State.mapGroups, State.drive]

/-! ### setFlag -/

@[simp] theorem State.setFlag_slots (f : Flag) : (s.setFlag f).slots = s.slots := rfl
@[simp] theorem State.setFlag_legs (f : Flag) : (s.setFlag f).legs = s.legs := rfl
@[simp] theorem State.setFlag_groups (f : Flag) : (s.setFlag f).groups = s.groups := rfl
@[simp] theorem State.setFlag_dc (f : Flag) : (s.setFlag f).dc = s.dc := rfl
@[simp] theorem State.setFlag_cyc (f : Flag) : (s.setFlag f).cyc = s.cyc := rfl
@[simp] theorem State.setFlag_safety (f : Flag) : (s.setFlag f).safety = s.safety := rfl
@[simp] theorem State.setFlag_ports (f : Flag) : (s.setFlag f).ports = s.ports := rfl
@[simp] theorem State.setFlag_drives (f : Flag) : (s.setFlag f).drives = s.drives := rfl
@[simp] theorem State.setFlag_mode (f : Flag) : (s.setFlag f).mode = s.mode := rfl
@[simp] theorem State.setFlag_image (f : Flag) : (s.setFlag f).image = s.image := rfl
@[simp] theorem State.setFlag_nv (f : Flag) : (s.setFlag f).nv = s.nv := rfl
@[simp] theorem State.setFlag_loadBuf (f : Flag) : (s.setFlag f).loadBuf = s.loadBuf := rfl
@[simp] theorem State.setFlag_loadPage (f : Flag) : (s.setFlag f).loadPage = s.loadPage := rfl
@[simp] theorem State.setFlag_signature (f : Flag) : (s.setFlag f).signature = s.signature := rfl
@[simp] theorem State.setFlag_imageBad (f : Flag) : (s.setFlag f).imageBad = s.imageBad := rfl
@[simp] theorem State.setFlag_storeOp (f : Flag) : (s.setFlag f).storeOp = s.storeOp := rfl
@[simp] theorem State.setFlag_now (f : Flag) : (s.setFlag f).now = s.now := rfl
@[simp] theorem State.setFlag_lastFast (f : Flag) : (s.setFlag f).lastFast = s.lastFast := rfl
@[simp] theorem State.setFlag_lastVdc (f : Flag) : (s.setFlag f).lastVdc = s.lastVdc := rfl
@[simp] theorem State.setFlag_lastTemp (f : Flag) : (s.setFlag f).lastTemp = s.lastTemp := rfl
@[simp] theorem State.setFlag_agenda (f : Flag) : (s.setFlag f).agenda = s.agenda := rfl
@[simp] theorem State.setFlag_pending (f : Flag) : (s.setFlag f).pending = s.pending := rfl
@[simp] theorem State.setFlag_slot (f : Flag) (k : SlotId) : (s.setFlag f).slot k = s.slot k := rfl
@[simp] theorem State.setFlag_leg (f : Flag) (k : LegId) : (s.setFlag f).leg k = s.leg k := rfl
@[simp] theorem State.setFlag_group (f : Flag) (k : GroupId) : (s.setFlag f).group k = s.group k := rfl
@[simp] theorem State.setFlag_port (f : Flag) (k : Link) : (s.setFlag f).port k = s.port k := rfl
@[simp] theorem State.setFlag_drive (f : Flag) (k : DriveLink) : (s.setFlag f).drive k = s.drive k := rfl

/-! ### Reading back -/

@[simp] theorem State.slot_setSlot (i j : SlotId) (x : Slot) :
    (s.setSlot i x).slot j = if i = j then x else s.slot j := by
  simp [State.slot, State.setSlot, Vector.getElem_set, Fin.ext_iff]

@[simp] theorem State.leg_setLeg (i j : LegId) (x : Leg) :
    (s.setLeg i x).leg j = if i = j then x else s.leg j := by
  simp [State.leg, State.setLeg, Vector.getElem_set, Fin.ext_iff]

@[simp] theorem State.group_setGroup (i j : GroupId) (x : Group) :
    (s.setGroup i x).group j = if i = j then x else s.group j := by
  simp [State.group, State.setGroup, Vector.getElem_set, Fin.ext_iff]

theorem linkIndex_injective {i j : Link} (h : linkIndex i = linkIndex j) : i = j := by
  cases i <;> cases j <;> first | rfl | cases h

theorem driveIndex_injective {i j : DriveLink} (h : driveIndex i = driveIndex j) : i = j := by
  cases i <;> cases j <;> first | rfl | cases h

@[simp] theorem State.port_setPort (i j : Link) (x : Port) :
    (s.setPort i x).port j = if i = j then x else s.port j := by
  cases i <;> cases j <;> simp [State.port, State.setPort, linkIndex]

@[simp] theorem State.drive_setDrive (i j : DriveLink) (x : DriveRec) :
    (s.setDrive i x).drive j = if i = j then x else s.drive j := by
  cases i <;> cases j <;> simp [State.drive, State.setDrive, driveIndex]

@[simp] theorem State.slot_mapSlots (f : SlotId → Slot → Slot) (i : SlotId) :
    (s.mapSlots f).slot i = f i (s.slot i) := by
  simp [State.slot, State.mapSlots]

@[simp] theorem State.leg_mapLegs (f : LegId → Leg → Leg) (l : LegId) :
    (s.mapLegs f).leg l = f l (s.leg l) := by
  simp [State.leg, State.mapLegs]

@[simp] theorem State.group_mapGroups (f : GroupId → Group → Group) (g : GroupId) :
    (s.mapGroups f).group g = f g (s.group g) := by
  simp [State.group, State.mapGroups]

@[simp] theorem State.setFlag_globalSet (f : Flag) : (s.setFlag f).globalSet = s.globalSet ||| f.bit := rfl

/-- A slot record put back as it stands changes nothing. -/
@[simp] theorem State.setSlot_slot (i : SlotId) : s.setSlot i (s.slot i) = s := by
  cases s
  simp [State.setSlot, State.slot]

/-- The later of two records put at one place stands. -/
@[simp] theorem State.setSlot_setSlot (i : SlotId) (x y : Slot) :
    (s.setSlot i x).setSlot i y = s.setSlot i y := by
  simp [State.setSlot]

@[simp] theorem State.setDrive_setDrive (d : DriveLink) (x y : DriveRec) :
    (s.setDrive d x).setDrive d y = s.setDrive d y := by
  simp [State.setDrive]

@[simp] theorem State.setPort_setPort (k : Link) (x y : Port) :
    (s.setPort k x).setPort k y = s.setPort k y := by
  simp [State.setPort]

@[simp] theorem State.setLeg_setLeg (l : LegId) (x y : Leg) :
    (s.setLeg l x).setLeg l y = s.setLeg l y := by
  simp [State.setLeg]

/-- A record of a link put back as it stands changes nothing. -/
@[simp] theorem State.setPort_port (k : Link) : s.setPort k (s.port k) = s := by
  cases s
  simp [State.setPort, State.port]

@[simp] theorem State.setDrive_drive (d : DriveLink) : s.setDrive d (s.drive d) = s := by
  cases s
  simp [State.setDrive, State.drive]

@[simp] theorem State.setLeg_leg (l : LegId) : s.setLeg l (s.leg l) = s := by
  cases s
  simp [State.setLeg, State.leg]

/-- The records of a state as its accessors read them. -/
theorem State.slots_getElem (i : SlotId) : s.slots[i] = s.slot i := rfl

theorem State.legs_getElem (l : LegId) : s.legs[l] = s.leg l := rfl

/-! ### Members of the lists of numbers -/

@[simp] theorem mem_allSlots (i : SlotId) : i ∈ allSlots := List.mem_finRange i

@[simp] theorem mem_allLegs (l : LegId) : l ∈ allLegs := List.mem_finRange l

end Sys2Proof.Machine
end

