-- ==== Sys2Proof/Laws/Agenda.lean ====
section
/-! SUPPORT. What running the owed works can do (logs 3, 4): a command that takes the work at the front
of the agenda, the clock leaving an instant at which nothing is owed, and the rule by which a property
kept by every work is kept by all of them. -/

namespace Sys2Proof.Machine

/-! ### Works -/

@[simp] theorem runWorks_nil (s : State) : runWorks [] s = { s with agenda := [] } := rfl

theorem runWorks_cons (w : Work) (ws : List Work) (s : State) :
    runWorks (w :: ws) s =
      if pauses w s then { s with agenda := w :: ws } else runWorks ws (perform w s) := rfl

@[simp] theorem performAll_nil (s : State) : performAll [] s = s := rfl

theorem performAll_cons (w : Work) (ws : List Work) (s : State) :
    performAll (w :: ws) s = performAll ws (perform w s) := rfl

/-- With nothing owed, an instant is settled as it stands. -/
theorem State.settle_of_empty {s : State} (h : s.agenda = []) : s.settle = s := by
  cases s
  simp only [State.settle, State.worksOwed, State.turnOnsOwed] at *
  subst h
  rfl

/-- With nothing owed, an instant is left as it stands. -/
theorem State.close_of_empty {s : State} (h : s.agenda = []) : s.close = s := by
  unfold State.close
  rw [State.settle_of_empty h, h]
  cases s
  subst h
  rfl

/-- With a turn-on alone owed, it is what is done as the instant is left (R56). -/
theorem State.close_of_turnOn {s : State} {l : LegId} (h : s.agenda = [.turnOn l]) :
    s.close = { s.turnOnWork l with agenda := [] } := by
  have hs : s.settle = s := by
    cases s
    simp only [State.settle, State.worksOwed, State.turnOnsOwed] at *
    subst h
    rfl
  unfold State.close
  rw [hs, h]
  rfl

/-- With nothing owed, the clock alone moves, and the loaded marks clear with it (R142). -/
theorem State.arrive_of_empty {s : State} (h : s.agenda = []) (t : Nat) : s.arrive t = s.atCount t := by
  unfold State.arrive State.atCount
  rw [State.close_of_empty h]

theorem State.arriveAt_of_empty {s : State} (h : s.agenda = []) (due : State → Nat) :
    s.arriveAt due = s.atCount (due s) := by
  unfold State.arriveAt
  rw [State.settle_of_empty h]
  split
  · exact State.arrive_of_empty h _
  · next hn => simp [State.atCount, hn]

/-- An event that finds nothing owed leaves its works as `arrange` orders them. -/
theorem State.post_of_empty {s : State} (h : s.agenda = []) (order due : List Work) :
    s.post order due = runWorks (arrange order due) s := by
  have hb : s.behind = fun _ => false := by
    funext w
    unfold State.behind State.midCycle
    split
    · simp [h]
    · rfl
  simp [State.post, State.worksOwed, State.turnOnsOwed, h, hb]

/-- The first work owed at an instant. -/
theorem State.owe_of_empty {s : State} (h : s.agenda = []) (w : Work) :
    s.owe w = { s with agenda := [w] } := by
  simp [State.owe, h]

/-! ### The clock alone -/

variable (s : State) (t : Nat)

@[simp] theorem State.atCount_now : (s.atCount t).now = max s.now t := by
  unfold State.atCount
  split
  · simp; omega
  · omega

@[simp] theorem State.atCount_leg (l : LegId) : (s.atCount t).leg l = s.leg l := by
  unfold State.atCount
  split
  · rw [State.mapSlots_leg]; rfl
  · rfl

@[simp] theorem State.atCount_group (g : GroupId) : (s.atCount t).group g = s.group g := by
  unfold State.atCount
  split
  · rw [State.mapSlots_group]; rfl
  · rfl

@[simp] theorem State.atCount_port (k : Link) : (s.atCount t).port k = s.port k := by
  unfold State.atCount
  split
  · rw [State.mapSlots_port]; rfl
  · rfl

@[simp] theorem State.atCount_drive (d : DriveLink) : (s.atCount t).drive d = s.drive d := by
  unfold State.atCount
  split
  · rw [State.mapSlots_drive]; rfl
  · rfl

@[simp] theorem State.atCount_mode : (s.atCount t).mode = s.mode := by
  unfold State.atCount; split <;> simp

@[simp] theorem State.atCount_image : (s.atCount t).image = s.image := by
  unfold State.atCount; split <;> simp

@[simp] theorem State.atCount_cyc : (s.atCount t).cyc = s.cyc := by
  unfold State.atCount; split <;> simp

@[simp] theorem State.atCount_dc : (s.atCount t).dc = s.dc := by
  unfold State.atCount; split <;> simp

@[simp] theorem State.atCount_safety : (s.atCount t).safety = s.safety := by
  unfold State.atCount; split <;> simp

@[simp] theorem State.atCount_agenda : (s.atCount t).agenda = s.agenda := by
  unfold State.atCount; split <;> simp

/-- The clock changes nothing of a slot but its loaded mark (R142). -/
theorem State.atCount_slot (i : SlotId) :
    (s.atCount t).slot i =
      if s.now < t then { s.slot i with stopLoaded := false } else s.slot i := by
  unfold State.atCount
  split
  · rw [State.slot_mapSlots]; rfl
  · rfl

/-! ### A command that takes a work -/

/-- A command that takes the work at the front of the agenda, when it stands out: the work is done, and
the works behind it as far as none waits. -/
theorem State.takeRow_front {s : State} {w : Work} {ws : List Work} {due : State → Bool}
    {f : State → State} (ha : s.agenda = w :: ws) (hd : due s = true) :
    s.takeRow w due f = runWorks ws (f s) := by
  simp [State.takeRow, ha, hd]

/-- A command whose work is not owed has no effect (log 2). -/
theorem State.takeRow_not_owed {s : State} {w : Work} {due : State → Bool} {f : State → State}
    (h : w ∉ s.agenda) : s.takeRow w due f = s := by
  simp [State.takeRow, h]

/-- The conditions under which a link serves the head of its queue (R169, R170). -/
theorem State.Serves.headIs {s : State} {d : DriveLink} {r : Request} {rest : List Request}
    {ws : List Work} (h : s.Serves d r rest ws) {k : Kind} (hk : Kind.ofCode r.kind = k) :
    s.headIs d k = true := by
  have hm : (s.mode == .setup || s.mode == .operate) = true := by
    rcases h.mode with hm | hm <;> simp [hm]
  simp [State.headIs, State.canServe, hm, h.free, h.queue, hk]

/-- A command that serves the request at the head of the queue, when the cycle event owes it first. -/
theorem State.takeServed_front {s : State} {d : DriveLink} {r : Request} {rest : List Request}
    {ws : List Work} (h : s.Serves d r rest ws) {k : Kind} (hk : Kind.ofCode r.kind = k)
    (f : State → State) : s.takeServed d k f = runWorks ws (f s) :=
  State.takeRow_front h.owed (h.headIs hk)

/-- A link reset that is not owed leaves the state to what follows (R173). -/
theorem State.resetOwed_not_owed {s : State} {k : Link} (h : Work.linkReset k ∉ s.agenda) :
    s.resetOwed k = s :=
  State.takeRow_not_owed h

/-- A link reset alone owed, its count full, is made (R173). -/
theorem State.resetOwed_owed {s : State} {k : Link} (h : s.agenda = [.linkReset k])
    (hc : (s.port k).resetCount = 200) : s.resetOwed k = { s.linkResetNow k with agenda := [] } := by
  have hd : s.linkResetDue k = true := by simp [State.linkResetDue, hc, Config.linkResetCount]
  unfold State.resetOwed
  rw [State.takeRow_front h hd]
  simp [State.linkResetWork, hd]

/-! ### The order of works -/

theorem mem_placeWork {due placed : List Work} {w x : Work} (hw : w ∈ due) (hp : ∀ y ∈ placed, y ∈ due)
    (hx : x ∈ placeWork due placed w) : x ∈ due := by
  unfold placeWork at hx
  split at hx
  · exact hp x hx
  · simp only [worksAhead, List.mem_append, List.mem_filter, List.mem_singleton] at hx
    obtain (h | h) | rfl := hx
    exacts [hp x h, h.1, hw]

/-- Whatever order is asked for, exactly the due works are left (log 5). -/
theorem mem_arrange {order due : List Work} {w : Work} : w ∈ arrange order due ↔ w ∈ due := by
  have head : ∀ (ws placed : List Work), (∀ y ∈ ws, y ∈ due) → (∀ y ∈ placed, y ∈ due) →
      ∀ y ∈ ws.foldl (placeWork due) placed, y ∈ due := by
    intro ws
    induction ws with
    | nil => exact fun _ _ h => h
    | cons x ws ih =>
      intro placed hw hp
      exact ih _ (fun y hy => hw y (.tail _ hy)) fun y => mem_placeWork (hw x (.head _)) hp
  have h := head (order.filter fun w => due.contains w) []
    (fun y hy => by simpa using (List.mem_filter.1 hy).2) (fun _ h => absurd h (by simp)) w
  unfold arrange
  generalize (order.filter fun w => due.contains w).foldl (placeWork due) [] = head at h
  by_cases hm : w ∈ head
  · simp [hm, h hm]
  · simp [hm]

/-! ### Freshness and the pages -/

/-- A freshness step that stays below SAFE_TMO draws no consequence (R137). -/
theorem State.stepFreshness_below {s : State} (h : s.safety.freshness + 1 < s.image.safeTmo) :
    s.stepFreshness = s.steppedFreshness := by
  have hl : s.steppedFreshness.safetyLost = false := by
    simp [State.steppedFreshness, State.safetyLost]
    omega
  simp [State.stepFreshness, State.drawTimeout, hl]

/-- One that reaches SAFE_TMO sets SAFETY_LOST and forms the permissions afresh (R137, R140). -/
theorem State.stepFreshness_lost {s : State} (h : s.image.safeTmo ≤ s.safety.freshness + 1) :
    s.stepFreshness = (s.steppedFreshness.setFlag .safetyLost).reformPermissions := by
  have hl : s.steppedFreshness.safetyLost = true := by
    simp [State.steppedFreshness, State.safetyLost, h]
  simp [State.stepFreshness, State.drawTimeout, hl]

/-- The clock at a page read, with nothing owed (R178, log 13). -/
theorem State.loadPageRead_now {s : State} (hm : s.mode = .loading) (ha : s.agenda = [])
    (hp : s.loadPage < 8) : s.loadPageRead.now = max s.now s.pageInstant := by
  simp [State.loadPageRead, hm, hp, State.arrive_of_empty ha]

/-! ### Properties that every work keeps -/

/-- A property kept by each work, and blind to the agenda, is kept by a run of works. -/
theorem runWorks_keeps {P : State → Prop} (ha : ∀ s ws, P s → P { s with agenda := ws })
    (hp : ∀ w s, P s → P (perform w s)) : ∀ ws s, P s → P (runWorks ws s) := by
  intro ws
  induction ws with
  | nil => exact fun s h => ha s [] h
  | cons w ws ih =>
    intro s h
    rw [runWorks_cons]
    split
    · exact ha _ _ h
    · exact ih _ (hp w s h)

theorem performAll_keeps {P : State → Prop} (hp : ∀ w s, P s → P (perform w s)) :
    ∀ ws s, P s → P (performAll ws s) := by
  intro ws
  induction ws with
  | nil => exact fun s h => h
  | cons w ws ih => exact fun s h => ih _ (hp w s h)

theorem State.settle_keeps {P : State → Prop} (ha : ∀ s ws, P s → P { s with agenda := ws })
    (hp : ∀ w s, P s → P (perform w s)) (s : State) (h : P s) : P s.settle :=
  ha _ _ (performAll_keeps hp _ _ h)

theorem State.close_keeps {P : State → Prop} (ha : ∀ s ws, P s → P { s with agenda := ws })
    (hp : ∀ w s, P s → P (perform w s)) (s : State) (h : P s) : P s.close :=
  ha _ _ (performAll_keeps hp _ _ (State.settle_keeps ha hp s h))

theorem State.owe_keeps {P : State → Prop} (ha : ∀ s ws, P s → P { s with agenda := ws })
    (s : State) (w : Work) (h : P s) : P (s.owe w) := by
  unfold State.owe
  split
  · exact h
  · exact ha _ _ h

/-- A property also blind to the clock and the loaded marks is kept as the clock moves on. -/
theorem State.arrive_keeps {P : State → Prop} (ha : ∀ s ws, P s → P { s with agenda := ws })
    (hp : ∀ w s, P s → P (perform w s))
    (hn : ∀ s t, P s → P (({ s with now := t }).mapSlots fun _ x => { x with stopLoaded := false }))
    (s : State) (t : Nat) (h : P s) : P (s.arrive t) := by
  unfold State.arrive
  split
  · exact hn _ _ (State.close_keeps ha hp _ h)
  · exact h

theorem State.arriveAt_keeps {P : State → Prop} (ha : ∀ s ws, P s → P { s with agenda := ws })
    (hp : ∀ w s, P s → P (perform w s))
    (hn : ∀ s t, P s → P (({ s with now := t }).mapSlots fun _ x => { x with stopLoaded := false }))
    (s : State) (due : State → Nat) (h : P s) : P (s.arriveAt due) := by
  unfold State.arriveAt
  split
  · exact State.arrive_keeps ha hp hn _ _ (State.settle_keeps ha hp _ h)
  · exact h

/-- A command that takes a work keeps what every work and its own effect keep. -/
theorem State.takeRow_keeps {P : State → Prop} (ha : ∀ s ws, P s → P { s with agenda := ws })
    (hp : ∀ w s, P s → P (perform w s)) {f : State → State} (hf : ∀ s, P s → P (f s))
    (s : State) (w : Work) (due : State → Bool) (h : P s) : P (s.takeRow w due f) := by
  unfold State.takeRow
  split
  · dsimp only
    split
    · exact runWorks_keeps ha hp _ _ (hf _ (performAll_keeps hp _ _ h))
    · exact h
  · exact h

/-- An event that leaves works keeps what every work keeps. -/
theorem State.post_keeps {P : State → Prop} (ha : ∀ s ws, P s → P { s with agenda := ws })
    (hp : ∀ w s, P s → P (perform w s)) (s : State) (order due : List Work) (h : P s) :
    P (s.post order due) :=
  runWorks_keeps ha hp _ _ h

end Sys2Proof.Machine
end

