-- ==== Sys2Proof/Laws/Arith.lean ====
section
/-! SUPPORT. What the arithmetic words give (00_scope.md, Arithmetic Conventions): clamp lies within its
ends, isqrt is the floor of the square root. -/

namespace Sys2Proof.Machine

/-- A clamped value lies within the ends. -/
theorem clampI_bounds {x a b : Int} (h : a ≤ b) : a ≤ clampI x a b ∧ clampI x a b ≤ b := by
  unfold clampI
  split
  · omega
  · split <;> omega

/-- A value within the ends is left as it is. -/
theorem clampI_of_mem {x a b : Int} (ha : a ≤ x) (hb : x ≤ b) : clampI x a b = x := by
  unfold clampI
  split
  · omega
  · split <;> omega

theorem clampSym_bounds {x m : Int} (h : 0 ≤ m) : -m ≤ clampSym x m ∧ clampSym x m ≤ m :=
  clampI_bounds (by omega)

theorem clampSym_abs_le {x m : Int} (h : 0 ≤ m) : |clampSym x m| ≤ m :=
  abs_le.mpr (clampSym_bounds h)

/-- A symmetric clamp does not raise a magnitude. -/
theorem clampSym_abs_le_abs {x m : Int} (h : 0 ≤ m) : |clampSym x m| ≤ |x| := by
  unfold clampSym clampI
  split
  · rw [abs_neg, abs_of_nonneg h, le_abs]; omega
  · split
    · rw [abs_of_nonneg h, le_abs]; omega
    · exact le_refl _

/-- One bit of the square root keeps the root within its bracket. -/
theorem isqrtBits_spec (n b r : Nat) (hr : r * r ≤ n) (hn : n < (r + 2 ^ b) * (r + 2 ^ b)) :
    isqrtBits n b r * isqrtBits n b r ≤ n ∧ n < (isqrtBits n b r + 1) * (isqrtBits n b r + 1) := by
  induction b generalizing r with
  | zero => simpa [isqrtBits] using ⟨hr, hn⟩
  | succ b ih =>
    unfold isqrtBits
    split
    · next h =>
      refine ih _ h ?_
      rwa [show r + 2 ^ b + 2 ^ b = r + 2 ^ (b + 1) by rw [pow_succ]; ring]
    · next h => exact ih _ hr (by omega)

/-- isqrt is the floor of the square root. -/
theorem isqrt_spec (n : Nat) : isqrt n * isqrt n ≤ n ∧ n < (isqrt n + 1) * (isqrt n + 1) := by
  refine isqrtBits_spec n _ 0 (by omega) ?_
  have h : n < 2 ^ (n.log2 + 1) := Nat.lt_log2_self
  have hp : 2 ^ (n.log2 + 1) ≤ 2 ^ (n.log2 / 2 + 1) * 2 ^ (n.log2 / 2 + 1) := by
    rw [← pow_add]
    exact Nat.pow_le_pow_right (by omega) (by omega)
  simpa using lt_of_lt_of_le h hp

theorem isqrtI_nonneg (x : Int) : 0 ≤ isqrtI x := Int.natCast_nonneg _

/-- The square of isqrt does not exceed its argument. -/
theorem isqrtI_sq_le {x : Int} (h : 0 ≤ x) : isqrtI x * isqrtI x ≤ x := by
  have hs := (isqrt_spec x.toNat).1
  unfold isqrtI
  have : ((isqrt x.toNat * isqrt x.toNat : Nat) : Int) ≤ (x.toNat : Int) := Int.ofNat_le.mpr hs
  rw [Int.toNat_of_nonneg h] at this
  simpa using this

/-- The next instant of a periodic event is not before the present one. -/
theorem nextInstant_ge (p last now : Nat) (hp : 0 < p) : now ≤ nextInstant p last now := by
  have h : now ≤ (now + p - 1) / p * p := by
    have := Nat.div_add_mod (now + p - 1) p
    have hm := Nat.mod_lt (now + p - 1) hp
    rw [Nat.mul_comm] at this
    omega
  exact le_trans h (Nat.le_max_right _ _)

/-- In an unbroken run the next instant is one period after the last. -/
theorem nextInstant_run (p last now : Nat) (hp : 0 < p) (hl : p ∣ last) (h : now ≤ last + p) :
    nextInstant p last now = last + p := by
  obtain ⟨k, rfl⟩ := hl
  refine Nat.max_eq_left ?_
  have hk : (now + p - 1) / p ≤ k + 1 := by
    have : (now + p - 1) / p < k + 2 := by
      rw [Nat.div_lt_iff_lt_mul hp]
      calc now + p - 1 < now + p := by omega
        _ ≤ p * k + p + p := by omega
        _ = (k + 2) * p := by ring
    omega
  calc (now + p - 1) / p * p ≤ (k + 1) * p := Nat.mul_le_mul_right _ hk
    _ = p * k + p := by ring

end Sys2Proof.Machine
end

