-- ==== Sys2Proof/Laws/Image.lean ====
section
/-! SUPPORT. What the image functions of chapter 10 give, in the terms of the rules: values as bytes, the image
CRC and the signature (R178, R180), ranges and code sets (R179), leg-map entries (R53) and the derivation
of the slot fields (R2). -/

namespace Sys2Proof.Machine

/-! ### Bytes, CRC, signature -/

theorem bytesOfWords_eq (ws : List Word) : bytesOfWords ws = ws.flatMap wordBytes := by
  unfold bytesOfWords
  congr 1
  funext w
  simp only [wordBytes, hiByte, loByte]
  congr 1
  apply BitVec.eq_of_toNat_eq
  simp [Nat.shiftRight_eq_div_pow]

/-- The image CRC is formed over bytes 0 to 509 (R178). -/
theorem Image.crcOf_eq (img : Image) : img.crcOf = crc 0xFFFF#16 (bytesOfWords (img.toList.take 255)) := by
  rw [bytesOfWords_eq]
  rfl

/-- The protected items in ascending identifier order, as words of the image (R180). -/
theorem Image.protectedWords_eq (img : Image) : img.protectedWords = protectedItems.map img.item := by
  have hl : img.toList = (List.finRange 256).map fun i => img[i] := by
    apply List.ext_getElem <;> simp
  have hi : protectedItems.map Item.index =
      (List.finRange 256).take 27 ++ ((List.finRange 256).drop 32).take 24 ++
        (List.finRange 8).flatMap fun m => ((List.finRange 256).drop (56 + 16 * m.val + 7)).take 9 := by
    decide +kernel
  have : protectedItems.map img.item = (protectedItems.map Item.index).map fun i => img[i] := by
    rw [List.map_map]; rfl
  rw [this, hi]
  simp only [Image.protectedWords, hl, List.map_append, List.map_take, List.map_drop, List.map_flatMap]

/-- The signature is that of R180. -/
theorem Image.signatureOf_eq (img : Image) : img.signatureOf = img.signed := by
  rw [Image.signed, bytesOfWords_eq, Image.protectedWords_eq, List.flatMap_map]
  rfl

/-- A parameter of the defaulted image (R178, R179). -/
theorem Image.default_item (i : Item) : Image.default.item i = defaultWord i.index.val := by
  simp [Image.item, Image.default]

/-! ### Ranges, code sets, leg-map entries -/

/-- The function code of a leg-map entry (R53). -/
theorem legField_function (v : Word) : legField v 12 = v.toNat / 4096 := by
  have := v.isLt
  simp [legField]; omega

/-- The index code of a leg-map entry (R53). -/
theorem legField_index (v : Word) : legField v 0 = v.toNat % 16 := by simp [legField]

/-- A value is accepted as it stands exactly when it lies in its range or code set (R178, R179). -/
theorem Item.valueOk_iff (i : Item) (v : Word) : i.valueOk v = true ↔ i.kind.Admits v := by
  have h12 := legField_function v
  have h0 := legField_index v
  unfold Item.valueOk Item.examine ValueKind.Admits
  cases i.kind with
  | unsigned lo hi =>
    dsimp only
    by_cases h1 : v.toNat < lo
    · simp [h1]
    · by_cases h2 : hi < v.toNat
      · simp [h1, h2]
      · simp [h1, h2]; omega
  | signed lo hi =>
    dsimp only
    by_cases h1 : v.toInt < lo
    · simp [h1]
    · by_cases h2 : hi < v.toInt
      · simp [h1, h2]
      · simp [h1, h2]; omega
  | bits used => by_cases h : v &&& ~~~used = 0#16 <;> simp [h]
  | partnerCode => by_cases h : v.toNat ≤ 7 ∨ v.toNat = 255 <;> simp [h]
  | legCode =>
    have h8 : legField v 8 = v.toNat / 256 % 16 := rfl
    have h4 : legField v 4 = v.toNat / 16 % 16 := rfl
    have hk : legCodeOk v = true ↔ v.toNat / 4096 = 0 ∨ v.toNat / 4096 = 2 ∨ v.toNat / 4096 = 3 ∨
        (v.toNat / 4096 = 1 ∧ v.toNat / 256 % 16 ≤ 7 ∧ v.toNat / 16 % 16 ≤ 2 ∧ v.toNat % 16 ≤ 1) := by
      simp only [legCodeOk, h12, h8, h4, h0, Bool.and_eq_true, Bool.or_eq_true, decide_eq_true_eq]
      omega
    dsimp only
    rw [← hk]
    by_cases h : legCodeOk v = true <;> simp [h]

/-- All items are the global ones, the leg-map entries and the slots' (R179). -/
theorem allItems_all (p : Item → Bool) :
    allItems.all p = true ↔
      (∀ g, p (.global g) = true) ∧ (∀ l, p (.leg l) = true) ∧ ∀ m j, p (.slot m j) = true := by
  simp [allItems]

/-- The conditions of R178 but for the completion mark, once validation is known to be R182's. -/
theorem Image.loadsGood_iff {img : Image} (h : img.validate = none ↔ ∀ code n, ¬img.Fails code n) :
    img.loadsGood = true ↔ img.IsGood := by
  have hv : allItems.all (fun i => i.valueOk (img.item i)) = true ↔
      (∀ g : Fin 27, (Item.global g).kind.Admits img[g.val]) ∧
        (∀ l : LegId, (Item.leg l).kind.Admits img[32 + l.val]) ∧
        ∀ (m : SlotId) (j : Fin 16),
          (Item.slot m j).kind.Admits (img[56 + 16 * m.val + j.val]'(by omega)) := by
    rw [allItems_all]
    simp only [Item.valueOk_iff]
    rfl
  rw [Image.loadsGood, Bool.and_eq_true, Bool.and_eq_true, hv, Option.isNone_iff_eq_none, h, beq_iff_eq,
    img.crcOf_eq]
  exact ⟨fun ⟨⟨c, g, l, s⟩, f⟩ => ⟨c, g, l, s, f⟩, fun ⟨c, g, l, s, f⟩ => ⟨⟨c, g, l, s⟩, f⟩⟩

/-! ### The derivation of the slot fields -/

/-- A leg stands in the leg set when its entry is PHASE naming the slot (R2). -/
theorem Image.mem_seats (img : Image) (i : SlotId) (q : Seat) :
    q ∈ img.seats i ↔ legFuncOf img[32 + q.leg.val] = .phase i q.phase q.index := by
  have e : ∀ l : LegId, img.legFunc l = legFuncOf img[32 + l.val] := fun l => rfl
  simp only [Image.seats, List.mem_filterMap, List.mem_finRange, true_and, ← e]
  constructor
  · rintro ⟨l, h⟩
    split at h
    · next t ph ix hl => split at h <;> simp at h; next ht => subst h ht; exact hl
    · cases h
  · intro h
    exact ⟨q.leg, by simp [h]⟩

theorem Image.seats_ascending (img : Image) (i : SlotId) :
    ((img.seats i).map Seat.leg).Pairwise (· < ·) := by
  have hs : ((img.seats i).map Seat.leg).Sublist (List.finRange 24) := by
    unfold Image.seats
    generalize List.finRange 24 = ls
    induction ls with
    | nil => simp
    | cons l ls ih =>
      rw [List.filterMap_cons]
      split
      · exact ih.trans (List.sublist_cons_self _ _)
      · next q hq =>
        have : q.leg = l := by
          split at hq
          · split at hq <;> simp at hq; subst hq; rfl
          · cases hq
        simp [this, ih]
  exact List.Pairwise.sublist hs (List.pairwise_lt_finRange 24)

/-- The fields derived from an image that keeps the slot in one group are those of R2. -/
theorem Image.derives_of_one_group {img : Image} {i : SlotId} {x : Slot} (hs : x.seats = img.seats i)
    (hg : x.group = img.slotGroup i) (hp : x.partner = img.partner i) (h : img.badGroup i = false) :
    img.Derives i x := by
  refine ⟨fun q => by rw [hs, img.mem_seats], by rw [hs]; exact img.seats_ascending i, ?_, ?_, ?_⟩
  · intro h; rw [hg, Image.slotGroup, ← hs, h]; rfl
  · intro q hq
    rw [hs] at hq
    simp [Image.badGroup] at h
    exact ⟨groupOf q.leg, by rw [hg, h q hq], rfl⟩
  · intro p
    rw [hp]
    unfold Image.partner Image.slotNat
    have e : img.item (.slot i 15) = img[71 + 16 * i.val]'(by omega) := by
      have hx : (Item.slot i 15).index = ⟨71 + 16 * i.val, by omega⟩ :=
        Fin.ext (by simp only [Item.index]; omega)
      exact congrArg (fun n : Fin 256 => img[n]) hx
    rw [e]
    dsimp only
    split
    · simp [Fin.ext_iff]
    · simp; omega

end Sys2Proof.Machine
end

