-- ==== Sys2Proof/Laws/Legs.lean ====
section
/-! SUPPORT. What the leg operations do to the gates (R54, R56, R60, R64, R67, R69): each keeps a leg
interlocked, and a turn-off leaves it off. -/

namespace Sys2Proof.Machine

/-- An interlocked leg never has both switches on (R56). -/
theorem Leg.Interlocked.not_both {x : Leg} (h : x.Interlocked) : ¬(x.gh = true ∧ x.gl = true) := by
  rintro ⟨hh, hl⟩
  cases (h.high hh).symm.trans (h.low hl)

/-- A leg that agrees in target, gates and pending turn-on is interlocked alike. -/
theorem Leg.Interlocked.congr {x y : Leg} (h : x.Interlocked) (ht : y.target = x.target)
    (hh : y.gh = x.gh) (hl : y.gl = x.gl) (hp : y.pendingOn = x.pendingOn) : y.Interlocked :=
  ⟨by rw [hh, ht]; exact h.high, by rw [hl, ht]; exact h.low, by rw [hp, ht]; exact h.waits⟩

theorem Leg.IsOff.interlocked {x : Leg} (h : x.IsOff) : x.Interlocked :=
  ⟨by simp [h.high], by simp [h.low], by simp [h.waits]⟩

variable (x : Leg) (dt now : Nat)

/-- A turn-off leaves the leg off, with no compare and an empty shadow (R64). -/
theorem Leg.turnOff_isOff : x.turnOff.IsOff := ⟨rfl, rfl, rfl, rfl, rfl⟩

@[simp] theorem Leg.turnOff_shadow : x.turnOff.shadow = none := rfl
@[simp] theorem Leg.turnOff_active : x.turnOff.active = none := rfl
@[simp] theorem Leg.turnOff_func : x.turnOff.func = x.func := rfl
@[simp] theorem Leg.turnOff_drive : x.turnOff.drive = .off := rfl

/-- A target that stays as it is leaves the leg undisturbed (R56). -/
@[simp] theorem Leg.setTarget_same : x.setTarget dt now x.target = x := by
  simp [Leg.setTarget]

/-- After a change of target the leg has that target (R56). -/
@[simp] theorem Leg.setTarget_target (t : Target) : (x.setTarget dt now t).target = t := by
  unfold Leg.setTarget
  split
  · assumption
  · cases t <;> simp <;> split <;> rfl

@[simp] theorem Leg.setTarget_func (t : Target) : (x.setTarget dt now t).func = x.func := by
  unfold Leg.setTarget
  split
  · rfl
  · cases t <;> simp <;> split <;> rfl

@[simp] theorem Leg.setTarget_shadow (t : Target) : (x.setTarget dt now t).shadow = x.shadow := by
  unfold Leg.setTarget
  split
  · rfl
  · cases t <;> simp <;> split <;> rfl

/-- A change of target keeps a leg interlocked (R56). -/
theorem Leg.setTarget_interlocked {x : Leg} (h : x.Interlocked) (dt now : Nat) (t : Target) :
    (x.setTarget dt now t).Interlocked := by
  unfold Leg.setTarget
  split
  · exact h
  · next hne =>
    cases t with
    | none => exact ⟨by simp, by simp, by simp⟩
    | high =>
      dsimp only
      split
      · exact ⟨by simp, by simp, by simp⟩
      · exact ⟨by simp, by simp, by simp [Switch.wanted]⟩
    | low =>
      dsimp only
      split
      · exact ⟨by simp, by simp, by simp⟩
      · exact ⟨by simp, by simp, by simp [Switch.wanted]⟩

/-- A turn-on that falls due keeps a leg interlocked (R56). -/
theorem Leg.completeTurnOn_interlocked {x : Leg} (h : x.Interlocked) {p : TurnOn}
    (hp : x.pendingOn = some p) : (x.completeTurnOn p.switch).Interlocked := by
  have hw := h.waits p hp
  cases hs : p.switch with
  | high =>
    rw [hs] at hw
    exact ⟨fun _ => hw, h.low, by simp [Leg.completeTurnOn]⟩
  | low =>
    rw [hs] at hw
    exact ⟨h.high, fun _ => hw, by simp [Leg.completeTurnOn]⟩

theorem Leg.drivenTo_interlocked {x : Leg} (h : x.Interlocked) (dt now : Nat) (d : Drive) :
    (x.drivenTo dt now d).Interlocked := by
  cases d with
  | off => exact x.turnOff_isOff.interlocked
  | switching => exact h
  | high => exact (Leg.setTarget_interlocked h dt now .high).congr rfl rfl rfl rfl
  | low => exact (Leg.setTarget_interlocked h dt now .low).congr rfl rfl rfl rfl

theorem Leg.followChopper_interlocked {x : Leg} (h : x.Interlocked) (dt now : Nat) (on : Bool) :
    (x.followChopper dt now on).Interlocked :=
  Leg.drivenTo_interlocked h dt now _

/-- A new leg-map entry keeps a leg interlocked (R54). -/
theorem Leg.takeFunction_interlocked {x : Leg} (h : x.Interlocked) (dt now : Nat) (c : Bool)
    (f : LegFunc) : (x.takeFunction dt now c f).Interlocked := by
  unfold Leg.takeFunction
  split
  · exact h.congr rfl rfl rfl rfl
  · have hoff : ∀ g, ({ x.turnOff with func := g } : Leg).Interlocked := fun g =>
      x.turnOff_isOff.interlocked.congr rfl rfl rfl rfl
    cases f with
    | chopper => exact Leg.followChopper_interlocked (hoff _) dt now c
    | unused => exact hoff _
    | phase _ _ _ => exact hoff _
    | forced => exact hoff _

/-- The taking of a shadow keeps a leg interlocked (R60). -/
theorem Leg.takeShadow_interlocked {x : Leg} (h : x.Interlocked) (hp dt now : Nat) :
    (x.takeShadow hp dt now).Interlocked := by
  unfold Leg.takeShadow
  split
  · split
    · exact (Leg.setTarget_interlocked h dt now _).congr rfl rfl rfl rfl
    · exact (Leg.setTarget_interlocked h dt now _).congr rfl rfl rfl rfl
  · exact h

/-- A leg that takes a leg-map entry, in the statements' words (R54, R67). -/
theorem Leg.takeFunction_eq (x : Leg) (dt now : Nat) (c : Bool) (f : LegFunc) :
    x.takeFunction dt now c f = x.tookEntry f dt now c := by
  unfold Leg.takeFunction Leg.tookEntry
  split
  · rfl
  · cases f <;> try rfl
    cases c
    · rfl
    · by_cases h : dt = 0 <;>
        simp [Leg.followChopper, Leg.drivenTo, Leg.setTarget, Leg.turnOff, h]

end Sys2Proof.Machine
end

