-- ==== Sys2Proof/Laws/Loop.lean ====
section
/-! SUPPORT. What the words of the current loop give (R34, R42 to R50): the clamps as minimum and
maximum, the anti-windup choice, the dropped pulse, and the phases a computation goes through. -/

namespace Sys2Proof.Machine

/-- A symmetric clamp within a limit that is not negative. -/
theorem clampSym_eq (x : Int) {m : Int} (h : 0 ≤ m) : clampSym x m = max (-m) (min x m) := by
  unfold clampSym clampI
  split <;> [skip; split] <;> omega

/-- Saturation to 16 bits. -/
theorem sat16_eq (x : Int) : sat16 x = max (-32768) (min x 32767) := by
  unfold sat16 clampI
  split <;> [skip; split] <;> omega

/-- An error and a pre-limit voltage of one sign (R43). -/
theorem same_sign_iff (e u : Int) :
    (e ≠ 0 ∧ 0 < e * u) ↔ ((0 < e ∧ 0 < u) ∨ (e < 0 ∧ u < 0)) := by
  constructor
  · rintro ⟨_, h⟩
    rcases lt_trichotomy e 0 with h1 | h1 | h1
    · exact .inr ⟨h1, by nlinarith⟩
    · simp [h1] at h
    · exact .inl ⟨h1, by nlinarith⟩
  · rintro (⟨a, b⟩ | ⟨a, b⟩)
    · exact ⟨by omega, mul_pos a b⟩
    · exact ⟨by omega, mul_pos_of_neg_of_neg a b⟩

/-- What the dropped pulse makes of a compensated compare value (R47, R48). -/
theorem dropPulse_eq (c : Int) (hp mp : Nat) :
    (dropPulse c hp mp : Int) =
      if max 0 (min c hp) < mp then 0
      else if (hp : Int) - mp < max 0 (min c hp) then (hp : Int) else max 0 (min c hp) := by
  unfold dropPulse
  have h : clampI c 0 hp = max 0 (min c hp) := by
    unfold clampI
    split <;> [skip; split] <;> omega
  simp only [h]
  split
  · rfl
  · split
    · rfl
    · omega

/-- The phases of one computation, from its limited voltage command on (R44 to R50). -/
theorem loopCompute_phases (x : LoopIn) :
    let o := loopCompute x
    let v := phaseVoltages o.uD o.uQ (sinAu x.theta) (cosAu x.theta)
    o.cU = x.compareOf v.1 x.ia ∧ o.cV = x.compareOf v.2.1 x.ib ∧ o.cW = x.compareOf v.2.2 x.ic ∧
      o.j = x.dcSample v :=
  ⟨rfl, rfl, rfl, rfl⟩

end Sys2Proof.Machine
end

