-- ==== Sys2Proof/Laws/Slots.lean ====
section
/-! SUPPORT. What the shared operations on slots can do: the move out of the active states (R17), a fault
notice (R16, R153), and the serving of a request (R169). -/

namespace Sys2Proof.Machine

variable (s : State) (i j : SlotId) (l : LegId)

/-! ### A slot leaves the active states -/

/-- Whether a leg belongs to a slot's leg set (R2). -/
def Slot.holds (x : Slot) (l : LegId) : Bool := x.seats.any fun t => t.leg = l

@[simp] theorem State.slotLegsOff_leg :
    (s.slotLegsOff i).leg l = if (s.slot i).holds l then (s.leg l).turnOff else s.leg l := by
  simp [State.slotLegsOff, Slot.holds]

@[simp] theorem State.slotLegsOff_slot : (s.slotLegsOff i).slot j = s.slot j := by
  simp [State.slotLegsOff]

/-- Only the slot itself leaves (R17). -/
@[simp] theorem State.haltSlot_slot (st : SlotState) :
    (s.haltSlot i st).slot j = if i = j then (s.slot i).leave st else s.slot j := by
  simp [State.haltSlot]

/-- Only the legs of its leg set are turned off (R64). -/
@[simp] theorem State.haltSlot_leg (st : SlotState) :
    (s.haltSlot i st).leg l = if (s.slot i).holds l then (s.leg l).turnOff else s.leg l := by
  simp [State.haltSlot]

/-- Everything else stays as it is when a slot leaves the active states (R17). -/
theorem State.haltSlot_frame (st : SlotState) :
    (s.haltSlot i st).groups = s.groups ∧ (s.haltSlot i st).dc = s.dc ∧
      (s.haltSlot i st).cyc = s.cyc ∧ (s.haltSlot i st).safety = s.safety ∧
      (s.haltSlot i st).ports = s.ports ∧ (s.haltSlot i st).drives = s.drives ∧
      (s.haltSlot i st).mode = s.mode ∧ (s.haltSlot i st).image = s.image ∧
      (s.haltSlot i st).globalSet = s.globalSet ∧ (s.haltSlot i st).now = s.now := by
  simp [State.haltSlot, State.slotLegsOff]

@[simp] theorem State.haltSlot_cyc (st : SlotState) : (s.haltSlot i st).cyc = s.cyc := by
  simp [State.haltSlot, State.slotLegsOff]

@[simp] theorem State.haltSlot_safety (st : SlotState) : (s.haltSlot i st).safety = s.safety := by
  simp [State.haltSlot, State.slotLegsOff]

@[simp] theorem State.haltSlot_mode (st : SlotState) : (s.haltSlot i st).mode = s.mode := by
  simp [State.haltSlot, State.slotLegsOff]

@[simp] theorem State.haltSlot_image (st : SlotState) : (s.haltSlot i st).image = s.image := by
  simp [State.haltSlot, State.slotLegsOff]

@[simp] theorem State.haltSlot_dc (st : SlotState) : (s.haltSlot i st).dc = s.dc := by
  simp [State.haltSlot, State.slotLegsOff]

@[simp] theorem State.haltSlot_drives (st : SlotState) : (s.haltSlot i st).drives = s.drives := by
  simp [State.haltSlot, State.slotLegsOff]

@[simp] theorem State.haltSlot_drive (st : SlotState) (d : DriveLink) :
    (s.haltSlot i st).drive d = s.drive d := by
  simp [State.haltSlot, State.slotLegsOff]

@[simp] theorem State.haltSlot_port (st : SlotState) (k : Link) :
    (s.haltSlot i st).port k = s.port k := by
  simp [State.haltSlot, State.slotLegsOff]

/-- A slot that leaves takes its integrators, stop counter, calibration and checks with it, and nothing
else (R16, R17). -/
theorem Slot.leave_keeps (x : Slot) (st : SlotState) :
    (x.leave st).state = st ∧ (x.leave st).owner = x.owner ∧ (x.leave st).resv = x.resv ∧
      (x.leave st).kScale = x.kScale ∧ (x.leave st).demand = x.demand ∧ (x.leave st).idW = x.idW ∧
      (x.leave st).iqW = x.iqW ∧ (x.leave st).theta = x.theta ∧ (x.leave st).perm = x.perm ∧
      (x.leave st).causes = x.causes ∧ (x.leave st).partner = x.partner ∧
      (x.leave st).seats = x.seats :=
  ⟨rfl, rfl, rfl, rfl, rfl, rfl, rfl, rfl, rfl, rfl, rfl, rfl⟩

/-! ### Fault notices -/

/-- The slot record after its slot has recorded a cause (R16, R153). -/
def Slot.faulted (x : Slot) (c : Cause) (leg : Option LegId) (cycle : Word) : Slot :=
  { x.leave .fault with
    causes := x.causes ||| c.bit
    firstFault := if x.causes = 0#16 then some ⟨c, leg, cycle⟩ else x.firstFault }

@[simp] theorem State.recordFault_slot (c : Cause) (leg : Option LegId) :
    (s.recordFault i c leg).slot j =
      if i = j then (s.slot i).faulted c leg s.cyc.number else s.slot j := by
  simp only [State.recordFault, State.slot_setSlot, State.haltSlot_slot]
  split <;> simp [Slot.faulted]

@[simp] theorem State.recordFault_leg (c : Cause) (leg : Option LegId) :
    (s.recordFault i c leg).leg l = if (s.slot i).holds l then (s.leg l).turnOff else s.leg l := by
  simp [State.recordFault]

@[simp] theorem State.recordFault_cyc (c : Cause) (leg : Option LegId) :
    (s.recordFault i c leg).cyc = s.cyc := by
  simp [State.recordFault]

@[simp] theorem State.recordFault_safety (c : Cause) (leg : Option LegId) :
    (s.recordFault i c leg).safety = s.safety := by
  simp [State.recordFault]

/-- A notice for a slot that is not active changes nothing (R16). -/
theorem State.takeNotice_of_not_active (c : Cause) (leg : Option LegId)
    (h : (s.slot i).state.isActive = false) : s.takeNotice i c leg = s := by
  simp [State.takeNotice, h]

/-- A notice for an active slot without a partner records its cause there (R16, R153). -/
theorem State.takeNotice_alone (c : Cause) (leg : Option LegId)
    (h : (s.slot i).state.isActive = true) (hp : (s.slot i).partner = none) :
    s.takeNotice i c leg = s.recordFault i c leg := by
  simp [State.takeNotice, h, hp]

/-- A notice for an active slot whose partner is active takes the partner with it, under PARTNER (R16,
R153). -/
theorem State.takeNotice_pair (c : Cause) (leg : Option LegId) {p : SlotId}
    (h : (s.slot i).state.isActive = true) (hp : (s.slot i).partner = some p) (hne : i ≠ p)
    (ha : (s.slot p).state.isActive = true) :
    s.takeNotice i c leg = (s.recordFault i c leg).recordFault p .partner none := by
  simp [State.takeNotice, h, hp, State.noticeAlone, hne, ha]

/-! ### Serving -/

/-- A request served leaves the queue, and its result stands in the response field (R169). -/
theorem State.serveWith_of_queue {s : State} {d : DriveLink} {r : Request} {rest : List Request}
    (hq : (s.drive d).queue = r :: rest) (f : DriveLink → Request → State → State × Answer) :
    s.serveWith d f =
      let out := f d r (s.setDrive d { s.drive d with queue := rest })
      out.1.setDrive d { out.1.drive d with response := responseOf r out.2 } := by
  simp [State.serveWith, hq]

/-- A number as an answer's value. -/
@[simp] theorem toWord_natCast (n : Nat) : toWord (n : Int) = natWord n := by
  simp [toWord, natWord, BitVec.ofInt_natCast]

/-- The same in the statements' words: what the block did, then the result in the response field (R169). -/
theorem State.serveWith_eq_respond {s : State} {d : DriveLink} {r : Request} {rest : List Request}
    (hq : (s.drive d).queue = r :: rest) (f : DriveLink → Request → State → State × Answer) :
    s.serveWith d f =
      (f d r (s.dequeued d rest)).1.respond d r (f d r (s.dequeued d rest)).2.code
        (f d r (s.dequeued d rest)).2.value1 (f d r (s.dequeued d rest)).2.value2 := by
  rw [State.serveWith_of_queue hq]
  rfl

/-- A request leaving its queue changes nothing but the queue (R169). -/
theorem State.dequeued_frame (d : DriveLink) (rest : List Request) :
    (s.dequeued d rest).slots = s.slots ∧ (s.dequeued d rest).legs = s.legs ∧
      (s.dequeued d rest).groups = s.groups ∧ (s.dequeued d rest).dc = s.dc ∧
      (s.dequeued d rest).cyc = s.cyc ∧ (s.dequeued d rest).safety = s.safety ∧
      (s.dequeued d rest).ports = s.ports ∧ (s.dequeued d rest).mode = s.mode ∧
      (s.dequeued d rest).image = s.image ∧ (s.dequeued d rest).signature = s.signature ∧
      (s.dequeued d rest).storeOp = s.storeOp ∧ (s.dequeued d rest).globalSet = s.globalSet ∧
      (s.dequeued d rest).now = s.now :=
  ⟨rfl, rfl, rfl, rfl, rfl, rfl, rfl, rfl, rfl, rfl, rfl, rfl, rfl⟩

@[simp] theorem State.dequeued_slot (d : DriveLink) (rest : List Request) :
    (s.dequeued d rest).slot i = s.slot i := rfl

@[simp] theorem State.dequeued_leg (d : DriveLink) (rest : List Request) :
    (s.dequeued d rest).leg l = s.leg l := rfl

@[simp] theorem State.dequeued_mode (d : DriveLink) (rest : List Request) :
    (s.dequeued d rest).mode = s.mode := rfl

@[simp] theorem State.dequeued_image (d : DriveLink) (rest : List Request) :
    (s.dequeued d rest).image = s.image := rfl

@[simp] theorem State.dequeued_safety (d : DriveLink) (rest : List Request) :
    (s.dequeued d rest).safety = s.safety := rfl

@[simp] theorem State.dequeued_dc (d : DriveLink) (rest : List Request) :
    (s.dequeued d rest).dc = s.dc := rfl

@[simp] theorem State.dequeued_storeOp (d : DriveLink) (rest : List Request) :
    (s.dequeued d rest).storeOp = s.storeOp := rfl

end Sys2Proof.Machine
end

