-- ==== Sys2Proof/Laws/Permissions.lean ====
section
/-! SUPPORT. What forming the effective permissions afresh can do (R12, R138 to R141): each slot's record
follows from its own record and the stored permissions alone, a leg is at most turned off, and nothing
else changes. -/

namespace Sys2Proof.Machine

/-- The record of a slot after its effective permission and limit have been formed as `f`, the lead's
STOP_CYCLES being `stop` (R12, R138, R141). -/
def Slot.formed (x : Slot) (stop : Nat) (f : Permission × Nat) : Slot :=
  let y := { x with perm := f.1, lPerm := f.2 }
  if x.perm = f.1 then y
  else
    match x.state, f.1 with
    | .calibrating, .stop => y.leave .offHeld
    | .calibrating, .off => y.leave .offHeld
    | .run, .stop => { y with state := .stopping, stopCount := stop, stopLoaded := true }
    | .run, .off => y.leave .offHeld
    | .stopping, .off => y.leave .offHeld
    | .stopping, .allow => { y with state := .run, stopCount := 0, stopLoaded := false }
    | .stopping, .limit => { y with state := .run, stopCount := 0, stopLoaded := false }
    | _, _ => y

/-- What a state holds besides its slots and legs is alike in both. -/
structure State.SameRest (s t : State) : Prop where
  groups : t.groups = s.groups
  dc : t.dc = s.dc
  cyc : t.cyc = s.cyc
  safety : t.safety = s.safety
  ports : t.ports = s.ports
  drives : t.drives = s.drives
  mode : t.mode = s.mode
  image : t.image = s.image
  nv : t.nv = s.nv
  loadBuf : t.loadBuf = s.loadBuf
  loadPage : t.loadPage = s.loadPage
  signature : t.signature = s.signature
  imageBad : t.imageBad = s.imageBad
  storeOp : t.storeOp = s.storeOp
  globalSet : t.globalSet = s.globalSet
  now : t.now = s.now
  lastFast : t.lastFast = s.lastFast
  lastVdc : t.lastVdc = s.lastVdc
  lastTemp : t.lastTemp = s.lastTemp
  agenda : t.agenda = s.agenda
  pending : t.pending = s.pending

theorem State.SameRest.refl (s : State) : s.SameRest s := by constructor <;> rfl

theorem State.SameRest.trans {s t u : State} (h : s.SameRest t) (k : t.SameRest u) : s.SameRest u :=
  ⟨k.groups.trans h.groups, k.dc.trans h.dc, k.cyc.trans h.cyc, k.safety.trans h.safety,
    k.ports.trans h.ports, k.drives.trans h.drives, k.mode.trans h.mode, k.image.trans h.image,
    k.nv.trans h.nv, k.loadBuf.trans h.loadBuf, k.loadPage.trans h.loadPage,
    k.signature.trans h.signature, k.imageBad.trans h.imageBad, k.storeOp.trans h.storeOp,
    k.globalSet.trans h.globalSet, k.now.trans h.now, k.lastFast.trans h.lastFast,
    k.lastVdc.trans h.lastVdc, k.lastTemp.trans h.lastTemp, k.agenda.trans h.agenda,
    k.pending.trans h.pending⟩

variable (s : State) (i j : SlotId) (l : LegId)

theorem State.setSlot_sameRest (x : Slot) : s.SameRest (s.setSlot i x) := by constructor <;> rfl

theorem State.haltSlot_sameRest (st : SlotState) : s.SameRest (s.haltSlot i st) := by
  constructor <;> simp [State.haltSlot, State.slotLegsOff]

theorem State.movePermission_sameRest (p : Permission) : s.SameRest (s.movePermission i p) := by
  unfold State.movePermission
  split
  · exact s.haltSlot_sameRest i _
  · exact s.haltSlot_sameRest i _
  · exact s.setSlot_sameRest i _
  · exact s.haltSlot_sameRest i _
  · exact s.haltSlot_sameRest i _
  · exact s.setSlot_sameRest i _
  · exact s.setSlot_sameRest i _
  · exact State.SameRest.refl s

theorem State.reformSlot_sameRest : s.SameRest (s.reformSlot i) := by
  unfold State.reformSlot
  dsimp only
  split
  · exact s.setSlot_sameRest i _
  · exact (s.setSlot_sameRest i _).trans (State.movePermission_sameRest _ i _)

/-- Nothing but slots and legs changes when the permissions are formed afresh (R139, R140). -/
theorem State.reformPermissions_sameRest : s.SameRest s.reformPermissions := by
  unfold State.reformPermissions
  generalize allSlots = is
  induction is generalizing s with
  | nil => exact State.SameRest.refl s
  | cons i is ih => exact (s.reformSlot_sameRest i).trans (ih _)

/-- One slot's record after its permission has been formed; no other slot changes (R12, R138). -/
theorem State.reformSlot_slot :
    (s.reformSlot i).slot j =
      if i = j then (s.slot i).formed (s.image.stopCycles (s.leadOf i)) (s.formPermission i)
      else s.slot j := by
  simp only [State.reformSlot, Slot.formed]
  have hl : (s.setSlot i { s.slot i with
      perm := (s.formPermission i).1, lPerm := (s.formPermission i).2 }).leadOf i = s.leadOf i := by
    simp [State.leadOf]
  by_cases hp : (s.slot i).perm = (s.formPermission i).1
  · simp [hp]
  · simp only [hp, if_false, State.movePermission, State.slot_setSlot, if_true, State.setSlot_image, hl]
    cases (s.slot i).state <;> cases (s.formPermission i).1 <;>
      by_cases hij : i = j <;> simp [hij]

theorem State.haltSlot_leg_or (st : SlotState) :
    (s.haltSlot i st).leg l = s.leg l ∨ (s.haltSlot i st).leg l = (s.leg l).turnOff := by
  rw [State.haltSlot_leg]
  split
  · exact .inr rfl
  · exact .inl rfl

theorem State.movePermission_leg (p : Permission) :
    (s.movePermission i p).leg l = s.leg l ∨ (s.movePermission i p).leg l = (s.leg l).turnOff := by
  unfold State.movePermission
  split
  · exact s.haltSlot_leg_or i l _
  · exact s.haltSlot_leg_or i l _
  · exact .inl rfl
  · exact s.haltSlot_leg_or i l _
  · exact s.haltSlot_leg_or i l _
  · exact .inl rfl
  · exact .inl rfl
  · exact .inl rfl

/-- A leg is left alone or turned off when a slot's permission is formed (R12, R64). -/
theorem State.reformSlot_leg :
    (s.reformSlot i).leg l = s.leg l ∨ (s.reformSlot i).leg l = (s.leg l).turnOff := by
  unfold State.reformSlot
  dsimp only
  split
  · exact .inl rfl
  · exact State.movePermission_leg _ i l _

/-- The permission that is formed looks at no more than the stored permissions and the partners, the
mode, the freshness and the mismatch (R138). -/
theorem State.formPermission_congr {s t : State} (hr : s.SameRest t)
    (hs : ∀ j, (t.slot j).partner = (s.slot j).partner ∧
      (t.slot j).storedPerm = (s.slot j).storedPerm ∧ (t.slot j).storedLimit = (s.slot j).storedLimit) :
    t.formPermission i = s.formPermission i := by
  have h : t.storedPermission i = s.storedPermission i := by
    unfold State.storedPermission
    simp only [hs]
  unfold State.formPermission State.safetyLost
  rw [h, hr.safety, hr.mode, hr.image]

theorem Slot.formed_keeps (x : Slot) (stop : Nat) (f : Permission × Nat) :
    (x.formed stop f).partner = x.partner ∧ (x.formed stop f).storedPerm = x.storedPerm ∧
      (x.formed stop f).storedLimit = x.storedLimit ∧ (x.formed stop f).seats = x.seats ∧
      (x.formed stop f).owner = x.owner ∧ (x.formed stop f).perm = f.1 ∧
      (x.formed stop f).lPerm = f.2 ∧ (x.formed stop f).group = x.group := by
  simp only [Slot.formed]
  split
  · exact ⟨rfl, rfl, rfl, rfl, rfl, rfl, rfl, rfl⟩
  · split <;> exact ⟨rfl, rfl, rfl, rfl, rfl, rfl, rfl, rfl⟩

theorem State.reformSlot_stored :
    ((s.reformSlot i).slot j).partner = (s.slot j).partner ∧
      ((s.reformSlot i).slot j).storedPerm = (s.slot j).storedPerm ∧
      ((s.reformSlot i).slot j).storedLimit = (s.slot j).storedLimit := by
  rw [State.reformSlot_slot]
  split
  · next h =>
    subst h
    exact ⟨(Slot.formed_keeps _ _ _).1, (Slot.formed_keeps _ _ _).2.1, (Slot.formed_keeps _ _ _).2.2.1⟩
  · exact ⟨rfl, rfl, rfl⟩

theorem State.leadOf_congr {s t : State} (h : (t.slot i).partner = (s.slot i).partner) :
    t.leadOf i = s.leadOf i := by
  simp only [State.leadOf, h]

theorem State.foldl_reformSlot_slot (is : List SlotId) (hn : is.Nodup) :
    (is.foldl State.reformSlot s).slot j =
      if j ∈ is then (s.slot j).formed (s.image.stopCycles (s.leadOf j)) (s.formPermission j)
      else s.slot j := by
  induction is generalizing s with
  | nil => simp
  | cons i is ih =>
    have hi := List.nodup_cons.mp hn
    rw [List.foldl_cons, ih _ hi.2,
      State.formPermission_congr j (s.reformSlot_sameRest i) (s.reformSlot_stored i),
      State.leadOf_congr j (s.reformSlot_stored i j).1, (s.reformSlot_sameRest i).image,
      State.reformSlot_slot]
    by_cases hj : j ∈ is
    · have : i ≠ j := fun h => hi.1 (h ▸ hj)
      simp [hj, this]
    · by_cases hij : i = j
      · subst hij; simp [hj]
      · have : j ≠ i := fun h => hij h.symm
        simp [hj, hij, this]

/-- Every slot's record after the permissions have been formed afresh (R12, R138 to R141). -/
theorem State.reformPermissions_slot :
    s.reformPermissions.slot j =
      (s.slot j).formed (s.image.stopCycles (s.leadOf j)) (s.formPermission j) := by
  rw [State.reformPermissions, State.foldl_reformSlot_slot s j allSlots (List.nodup_finRange 8)]
  simp

/-- Forming the permissions afresh leaves a leg alone or turns it off (R12, R64). -/
theorem State.reformPermissions_leg :
    s.reformPermissions.leg l = s.leg l ∨ s.reformPermissions.leg l = (s.leg l).turnOff := by
  unfold State.reformPermissions
  generalize allSlots = is
  induction is generalizing s with
  | nil => exact .inl rfl
  | cons i is ih =>
    rw [List.foldl_cons]
    rcases ih (s.reformSlot i) with h | h <;> rcases s.reformSlot_leg i l with k | k <;>
      rw [h, k] <;> simp [Leg.turnOff]

/-- After the permissions have been formed, each stands as its rule forms it (R138). -/
theorem State.reformPermissions_perm :
    (s.reformPermissions.slot j).perm = (s.reformPermissions.formPermission j).1 := by
  have h : s.reformPermissions.formPermission j = s.formPermission j :=
    State.formPermission_congr j s.reformPermissions_sameRest fun i => by
      rw [State.reformPermissions_slot]
      exact ⟨(Slot.formed_keeps _ _ _).1, (Slot.formed_keeps _ _ _).2.1, (Slot.formed_keeps _ _ _).2.2.1⟩
  rw [h, State.reformPermissions_slot, (Slot.formed_keeps _ _ _).2.2.2.2.2.1]

/-- Two slots that name each other as partner are given the same permission and limit (R19, R138). -/
theorem State.formPermission_pair {p : SlotId} (hi : (s.slot i).partner = some p)
    (hp : (s.slot p).partner = some i) : s.formPermission p = s.formPermission i := by
  have h : s.storedPermission p = s.storedPermission i := by
    simp only [State.storedPermission, hi, hp]
    cases (s.slot i).storedPerm <;> cases (s.slot p).storedPerm <;>
      simp [Permission.code, Nat.min_comm]
  simp only [State.formPermission, h]

/-- Forming a permission leaves no slot in CALIBRATING or RUN under STOP or OFF, nor in STOPPING under OFF,
if none was before (R12). -/
theorem Slot.formed_permits (x : Slot) (stop : Nat) (f : Permission × Nat)
    (hr : x.state = .calibrating ∨ x.state = .run → x.perm ≠ .stop ∧ x.perm ≠ .off)
    (hs : x.state = .stopping → x.perm ≠ .off) :
    ((x.formed stop f).state = .calibrating ∨ (x.formed stop f).state = .run →
      (x.formed stop f).perm ≠ .stop ∧ (x.formed stop f).perm ≠ .off) ∧
      ((x.formed stop f).state = .stopping → (x.formed stop f).perm ≠ .off) := by
  obtain ⟨q, n⟩ := f
  simp only [Slot.formed]
  split
  · next h => subst h; exact ⟨hr, hs⟩
  · cases x.state <;> cases q <;> simp [Slot.leave]

/-- A stop counter stands at 0 outside STOPPING after a permission has been formed, if it did before
(R14). -/
theorem Slot.formed_stopCount (x : Slot) (stop : Nat) (f : Permission × Nat)
    (h : x.state ≠ .stopping → x.stopCount = 0) :
    (x.formed stop f).state ≠ .stopping → (x.formed stop f).stopCount = 0 := by
  obtain ⟨q, n⟩ := f
  simp only [Slot.formed]
  split
  · exact h
  · cases hx : x.state <;> cases q <;> simp [hx, Slot.leave] at h ⊢ <;> exact h

/-- A slot whose permission and limit stand as they are formed is not touched (R140). -/
theorem Slot.formed_same (x : Slot) (stop : Nat) : x.formed stop (x.perm, x.lPerm) = x := by
  simp [Slot.formed]

/-! ### The signatures compared -/

/-- The comparison of the signatures changes the mismatch condition and its flag alone (R136). -/
theorem State.compareSignature_eq (s : State) : s.compareSignature =
    if s.safety.freshSeen then
      { s with
        safety := { s.safety with mismatch := decide (s.safety.expectedSig ≠ s.signature) }
        globalSet := s.globalSet |||
          if s.safety.expectedSig ≠ s.signature then 0x0020#16 else 0#16 }
    else s := by
  have hb : (s.safety.expectedSig != s.signature) = decide (s.safety.expectedSig ≠ s.signature) := by
    rw [Bool.eq_iff_iff]
    simp
  unfold State.compareSignature State.setFlagIf
  rw [hb]
  by_cases h : s.safety.expectedSig = s.signature <;> simp [h, State.setFlag, Flag.bit, bitOf, Flag.code]

end Sys2Proof.Machine
end

