-- ==== Sys2Proof/Laws/Notices.lean ====
section
/-! SUPPORT. What fault notices can do (R16, R17, R153), one at a time and in a row: a slot that was
active goes to FAULT with its legs off, every other slot and leg stays as it is, and nothing else
changes. -/

namespace Sys2Proof.Machine

variable (s : State) (i j : SlotId) (l : LegId) (c : Cause) (leg : Option LegId)

theorem Slot.faulted_keeps (x : Slot) (n : Word) :
    (x.faulted c leg n).state = .fault ∧ (x.faulted c leg n).owner = x.owner ∧
      (x.faulted c leg n).seats = x.seats ∧ (x.faulted c leg n).partner = x.partner ∧
      (x.faulted c leg n).group = x.group ∧ (x.faulted c leg n).perm = x.perm :=
  ⟨rfl, rfl, rfl, rfl, rfl, rfl⟩

theorem State.recordFault_sameRest : s.SameRest (s.recordFault i c leg) :=
  (s.haltSlot_sameRest i .fault).trans (State.setSlot_sameRest _ i _)

/-- Whether a notice for slot `i` takes slot `j` with it as its partner (R16). -/
def State.takesPartner (s : State) (i j : SlotId) : Bool :=
  decide ((s.slot i).partner = some j) && decide (i ≠ j) && (s.slot j).state.isActive

/-- Nothing but slots and legs changes at a notice (R16, R17). -/
theorem State.takeNotice_sameRest : s.SameRest (s.takeNotice i c leg) := by
  unfold State.takeNotice
  split
  · dsimp only
    split
    · exact s.recordFault_sameRest i c leg
    · unfold State.noticeAlone
      split
      · exact (s.recordFault_sameRest i c leg).trans (State.recordFault_sameRest _ _ _ _)
      · exact s.recordFault_sameRest i c leg
  · exact State.SameRest.refl s

/-- Every slot after a notice: its own slot and an active partner are in FAULT (R16, R153). -/
theorem State.takeNotice_slot (h : (s.slot i).state.isActive = true) :
    (s.takeNotice i c leg).slot j =
      if i = j then (s.slot i).faulted c leg s.cyc.number
      else if s.takesPartner i j then (s.slot j).faulted .partner none s.cyc.number
      else s.slot j := by
  unfold State.takeNotice State.takesPartner
  simp only [h, if_true]
  cases hp : (s.slot i).partner with
  | none => simp
  | some p =>
    dsimp only
    unfold State.noticeAlone
    by_cases hip : i = p
    · subst hip
      by_cases hij : i = j <;> simp [hij, (Slot.faulted_keeps c leg _ _).1, SlotState.isActive]
    · by_cases ha : (s.slot p).state.isActive = true
      · by_cases hij : i = j
        · subst hij
          have : p ≠ i := fun h => hip h.symm
          simp [hip, ha, this]
        · by_cases hpj : p = j
          · subst hpj; simp [hip, ha]
          · simp [hip, ha, hij, hpj]
      · by_cases hij : i = j
        · subst hij; simp [hip, ha]
        · by_cases hpj : p = j
          · subst hpj; simp [hip, ha]
          · simp [hip, ha, hij, hpj]

/-- Every leg after a notice: those of the slots that went to FAULT are off (R16, R64). -/
theorem State.takeNotice_leg (h : (s.slot i).state.isActive = true) :
    (s.takeNotice i c leg).leg l =
      if (s.slot i).holds l = true ∨ ∃ j, s.takesPartner i j = true ∧ (s.slot j).holds l = true then
        (s.leg l).turnOff
      else s.leg l := by
  unfold State.takeNotice State.takesPartner
  simp only [h, if_true]
  cases hp : (s.slot i).partner with
  | none => simp
  | some p =>
    dsimp only
    unfold State.noticeAlone
    by_cases hip : i = p
    · subst hip
      simp [(Slot.faulted_keeps c leg _ _).1, SlotState.isActive]
    · by_cases ha : (s.slot p).state.isActive = true
      · by_cases h1 : (s.slot i).holds l = true <;> by_cases h2 : (s.slot p).holds l = true <;>
          simp [hip, ha, h1, h2, Leg.turnOff]
      · simp [hip, ha]

/-- What a row of notices leaves as it was of a slot: its owner, leg set, partner, group and permission;
and a slot that was not active stays as it is (R16). -/
theorem State.takeNotice_slot_or :
    (s.takeNotice i c leg).slot j = s.slot j ∨
      (s.slot j).state.isActive = true ∧
        ∃ c' leg', (s.takeNotice i c leg).slot j = (s.slot j).faulted c' leg' s.cyc.number := by
  by_cases h : (s.slot i).state.isActive = true
  · rw [State.takeNotice_slot s i j c leg h]
    by_cases hij : i = j
    · subst hij
      rw [if_pos rfl]
      exact .inr ⟨h, c, leg, rfl⟩
    · rw [if_neg hij]
      split
      · next hp =>
        simp only [State.takesPartner, Bool.and_eq_true] at hp
        exact .inr ⟨hp.2, .partner, none, rfl⟩
      · exact .inl rfl
  · rw [State.takeNotice_of_not_active s i c leg (by simpa using h)]
    exact .inl rfl

/-- A leg is left alone or turned off by a notice (R64). -/
theorem State.takeNotice_leg_or :
    (s.takeNotice i c leg).leg l = s.leg l ∨ (s.takeNotice i c leg).leg l = (s.leg l).turnOff := by
  by_cases h : (s.slot i).state.isActive = true
  · rw [State.takeNotice_leg s i l c leg h]
    split
    · exact .inr rfl
    · exact .inl rfl
  · rw [State.takeNotice_of_not_active s i c leg (by simpa using h)]
    exact .inl rfl

/-- A row of notices changes nothing but slots and legs (R16). -/
theorem State.takeNotices_sameRest (order : List SlotId) : s.SameRest (s.takeNotices order c) := by
  unfold State.takeNotices
  induction order generalizing s with
  | nil => exact State.SameRest.refl s
  | cons i is ih => exact (s.takeNotice_sameRest i c none).trans (ih _)

/-- A slot that was not active is left alone by a row of notices (R16). -/
theorem State.takeNotices_of_not_active (order : List SlotId) (h : (s.slot j).state.isActive = false) :
    (s.takeNotices order c).slot j = s.slot j := by
  unfold State.takeNotices
  induction order generalizing s with
  | nil => rfl
  | cons i is ih =>
    have hj : (s.takeNotice i c none).slot j = s.slot j := by
      rcases s.takeNotice_slot_or i j c none with k | ⟨k, _⟩
      · exact k
      · rw [h] at k; cases k
    rw [List.foldl_cons, ih _ (by rw [hj]; exact h), hj]

/-- An active slot to which one of a row of notices goes ends in FAULT, its legs off (R16, R17). -/
theorem State.takeNotices_fault (order : List SlotId) (hm : j ∈ order)
    (h : (s.slot j).state.isActive = true) :
    ((s.takeNotices order c).slot j).state = .fault := by
  unfold State.takeNotices
  induction order generalizing s with
  | nil => cases hm
  | cons i is ih =>
    rw [List.foldl_cons]
    have stays : ∀ t : State, (t.slot j).state = .fault →
        ((is.foldl (fun s i => s.takeNotice i c none) t).slot j).state = .fault := by
      intro t ht
      have := State.takeNotices_of_not_active t j c is (by rw [ht]; rfl)
      unfold State.takeNotices at this
      rw [this, ht]
    by_cases hij : i = j
    · subst hij
      refine stays _ ?_
      rw [State.takeNotice_slot s i i c none h, if_pos rfl]
      rfl
    · rcases s.takeNotice_slot_or i j c none with k | ⟨_, c', leg', k⟩
      · rcases List.mem_cons.mp hm with hj | hj
        · exact absurd hj.symm hij
        · exact ih _ hj (by rw [k]; exact h)
      · exact stays _ (by rw [k]; rfl)

/-- The legs after a row of notices are as they were or turned off (R64). -/
theorem State.takeNotices_leg_or (order : List SlotId) :
    (s.takeNotices order c).leg l = s.leg l ∨ (s.takeNotices order c).leg l = (s.leg l).turnOff := by
  unfold State.takeNotices
  induction order generalizing s with
  | nil => exact .inl rfl
  | cons i is ih =>
    rw [List.foldl_cons]
    rcases ih (s.takeNotice i c none) with h | h <;>
      rcases s.takeNotice_leg_or i l c none with k | k <;> rw [h, k] <;> simp [Leg.turnOff]

/-- A slot that was active has gone to FAULT, in however many notices. -/
def State.WentToFault (s t : State) (i : SlotId) : Prop :=
  (s.slot i).state.isActive = true ∧ (t.slot i).state = .fault

/-- The legs of the slots that a notice took to FAULT are turned off, and no other (R16, R64). -/
theorem State.takeNotice_legs :
    ((∃ k, s.WentToFault (s.takeNotice i c leg) k ∧ (s.slot k).holds l = true) →
        (s.takeNotice i c leg).leg l = (s.leg l).turnOff) ∧
      ((∀ k, s.WentToFault (s.takeNotice i c leg) k → (s.slot k).holds l = false) →
        (s.takeNotice i c leg).leg l = s.leg l) := by
  by_cases h : (s.slot i).state.isActive = true
  · rw [State.takeNotice_leg s i l c leg h]
    constructor
    · rintro ⟨k, ⟨ha, hf⟩, hk⟩
      rw [State.takeNotice_slot s i k c leg h] at hf
      rw [if_pos]
      by_cases hik : i = k
      · subst hik; exact .inl hk
      · rw [if_neg hik] at hf
        split at hf
        · next hp => exact .inr ⟨k, hp, hk⟩
        · rw [hf] at ha; cases ha
    · intro hn
      rw [if_neg]
      rintro (hk | ⟨k, hp, hk⟩)
      · rw [hn i ⟨h, by rw [State.takeNotice_slot s i i c leg h, if_pos rfl]; rfl⟩] at hk
        cases hk
      · have hq := hp
        simp only [State.takesPartner, Bool.and_eq_true, decide_eq_true_eq] at hq
        rw [hn k ⟨hq.2, by
          rw [State.takeNotice_slot s i k c leg h, if_neg hq.1.2, if_pos hp]; rfl⟩] at hk
        cases hk
  · rw [State.takeNotice_of_not_active s i c leg (by simpa using h)]
    refine ⟨?_, fun _ => rfl⟩
    rintro ⟨k, ⟨ha, hf⟩, -⟩
    rw [hf] at ha; cases ha

/-- The same of a row of notices (R16, R64). -/
theorem State.takeNotices_legs (order : List SlotId) :
    ((∃ k, s.WentToFault (s.takeNotices order c) k ∧ (s.slot k).holds l = true) →
        (s.takeNotices order c).leg l = (s.leg l).turnOff) ∧
      ((∀ k, s.WentToFault (s.takeNotices order c) k → (s.slot k).holds l = false) →
        (s.takeNotices order c).leg l = s.leg l) := by
  induction order generalizing s with
  | nil =>
    refine ⟨?_, fun _ => rfl⟩
    rintro ⟨k, ⟨ha, hf⟩, -⟩
    have hf : (s.slot k).state = .fault := hf
    rw [hf] at ha; cases ha
  | cons i is ih =>
    have hu : s.takeNotices (i :: is) c = (s.takeNotice i c none).takeNotices is c := rfl
    rw [hu]
    obtain ⟨h1, h2⟩ := s.takeNotice_legs i l c none
    obtain ⟨k1, k2⟩ := ih (s.takeNotice i c none)
    generalize hm : s.takeNotice i c none = u at *
    have hs : ∀ k, (u.slot k).holds l = (s.slot k).holds l := fun k => by
      subst hm
      rcases s.takeNotice_slot_or i k c none with e | ⟨-, c', leg', e⟩ <;> rw [e]
      rfl
    have hstay : ∀ k, (u.slot k).state = .fault → ((u.takeNotices is c).slot k).state = .fault :=
      fun k hk => by rw [State.takeNotices_of_not_active u k c is (by rw [hk]; rfl), hk]
    have hfirst : ∀ k, (s.slot k).state.isActive = true → (u.slot k).state = .fault ∨ u.slot k = s.slot k :=
      fun k _ => by
        subst hm
        rcases s.takeNotice_slot_or i k c none with e | ⟨-, c', leg', e⟩
        · exact .inr e
        · rw [e]; exact .inl rfl
    have hback : ∀ k, (u.slot k).state.isActive = true → (s.slot k).state.isActive = true := fun k hk => by
      subst hm
      rcases s.takeNotice_slot_or i k c none with e | ⟨ha, -⟩
      · rwa [e] at hk
      · exact ha
    constructor
    · rintro ⟨k, ⟨ha, hf⟩, hk⟩
      rcases hfirst k ha with e | e
      · have hl := h1 ⟨k, ⟨ha, e⟩, hk⟩
        rcases State.takeNotices_leg_or u l c is with f | f <;> rw [f, hl]
        simp [Leg.turnOff]
      · have hl := k1 ⟨k, ⟨by rw [e]; exact ha, hf⟩, by rw [hs]; exact hk⟩
        rw [hl]
        have := s.takeNotice_leg_or i l c none
        rw [hm] at this
        rcases this with f | f <;> rw [f]
        simp [Leg.turnOff]
    · intro hn
      rw [k2 fun k hk => by rw [hs]; exact hn k ⟨hback k hk.1, hk.2⟩,
        h2 fun k hk => hn k ⟨hk.1, hstay k hk.2⟩]
/-- Every slot is among the slots in any order (log 5). -/
theorem mem_slotsInOrder (order : List SlotId) : j ∈ slotsInOrder order := by
  unfold slotsInOrder
  by_cases h : j ∈ order
  · simp [h]
  · simp [h]

end Sys2Proof.Machine
end

