-- ==== Sys2Proof/Laws/Order.lean ====
section
/-! SUPPORT. The order that `arrange` leaves (log 5): each work once, a work that a rule puts first before
the one it precedes, and a link reset before all that its link does at a cycle event or behind all of it. -/

namespace Sys2Proof.Machine

/-! ### Rows of works -/

/-- Of two works that a row without repeats has in this order, the first is taken before the second. -/
theorem Before.of_sublist {ws : List Work} {x w : Work} (hn : ws.Nodup) (h : [x, w].Sublist ws) :
    Before ws x w := by
  obtain ⟨r1, r2, rfl, h1, h2⟩ := List.cons_sublist_iff.1 h
  have h2 : w ∈ r2 := List.singleton_sublist.1 h2
  have hd := (List.nodup_append.1 hn).2.2
  intro a b ha hb
  have h3 : a < r1.length := by
    by_contra hc
    rw [List.getElem?_append_right (by omega)] at ha
    exact hd x h1 x (List.mem_of_getElem? ha) rfl
  have h4 : r1.length ≤ b := by
    by_contra hc
    rw [List.getElem?_append_left (by omega)] at hb
    exact hd w (List.mem_of_getElem? hb) w h2 rfl
  omega

/-- Where one of two works does not stand, any order is kept. -/
theorem Before.of_not_mem {ws : List Work} {x w : Work} (h : x ∉ ws ∨ w ∉ ws) : Before ws x w := by
  intro a b ha hb
  rcases h with h | h
  · exact absurd (List.mem_of_getElem? ha) h
  · exact absurd (List.mem_of_getElem? hb) h

theorem pair_sublist {l r : List Work} {x w : Work} (hx : x ∈ l) (hw : w ∈ r) :
    [x, w].Sublist (l ++ r) :=
  List.Sublist.append (List.singleton_sublist.2 hx) (List.singleton_sublist.2 hw)

theorem pair_filter {due : List Work} {x w : Work} {f : Work → Bool} (h : [x, w].Sublist due)
    (hx : f x = true) (hw : f w = true) : [x, w].Sublist (due.filter f) := by
  have := h.filter f
  simpa [hx, hw] using this

theorem sublist_left {p l : List Work} (h : p.Sublist l) (r : List Work) : p.Sublist (l ++ r) :=
  h.trans (List.sublist_append_left _ _)

theorem sublist_right {p r : List Work} (h : p.Sublist r) (l : List Work) : p.Sublist (l ++ r) :=
  h.trans (List.sublist_append_right _ _)

/-! ### What `arrange` keeps -/

theorem mem_worksAhead {due placed : List Work} {x w : Work} :
    x ∈ worksAhead due placed w ↔
      x ∈ due ∧ mustPrecedeNow placed x w = true ∧ x ≠ w ∧ x ∉ placed := by
  simp [worksAhead, and_assoc]

/-- What the empty row has, and placing a due work keeps, the works named first have. -/
theorem head_keeps {due : List Work} {I : List Work → Prop} (h0 : I [])
    (hs : ∀ placed v, I placed → v ∈ due → v ∉ placed → I (placed ++ (worksAhead due placed v ++ [v])))
    (order : List Work) : I ((order.filter fun w => due.contains w).foldl (placeWork due) []) := by
  have go : ∀ ws placed : List Work, (∀ v ∈ ws, v ∈ due) → I placed →
      I (ws.foldl (placeWork due) placed) := by
    intro ws
    induction ws with
    | nil => exact fun _ _ h => h
    | cons x ws ih =>
      refine fun p hw h => ih _ (fun y hy => hw y (.tail _ hy)) ?_
      unfold placeWork
      split
      · exact h
      · next hc =>
        rw [List.append_assoc]
        exact hs _ _ h (hw x (.head _)) (by simpa using hc)
  exact go _ _ (fun v hv => by simpa using (List.mem_filter.1 hv).2) h0

/-- Each due work is left once. -/
theorem arrange_nodup {due : List Work} (hd : due.Nodup) (order : List Work) :
    (arrange order due).Nodup := by
  have hh := head_keeps (due := due) (I := List.Nodup) List.nodup_nil (by
    intro placed v h hv hc
    rw [List.nodup_append, List.nodup_append]
    refine ⟨h, ⟨hd.filter _, by simp, ?_⟩, ?_⟩
    · rintro a ha b hb rfl
      exact (mem_worksAhead.1 ha).2.2.1 (by simpa using hb)
    · rintro a ha b hb rfl
      rcases List.mem_append.1 hb with h | h
      · exact (mem_worksAhead.1 h).2.2.2 ha
      · exact hc ((by simpa using h : a = v) ▸ ha)) order
  unfold arrange
  generalize (order.filter fun w => due.contains w).foldl (placeWork due) [] = head at hh
  show (head ++ _).Nodup
  rw [List.nodup_append]
  refine ⟨hh, hd.filter _, ?_⟩
  rintro a ha b hb rfl
  simp at hb
  exact hb.2 ha

/-- Whatever `w` must precede, `x` must precede too: nothing pulls `w` in without `x`. -/
def Leads (x w : Work) : Prop :=
  ∀ placed v, mustPrecedeNow placed w v = true → mustPrecedeNow placed x v = true ∧ x ≠ v

/-- A work that must precede another, and stands before it among the due works, stands before it in the
row that is left. -/
theorem arrange_before {due : List Work} {x w : Work} (hs : [x, w].Sublist due)
    (hm : mustPrecede x w = true) (hxw : x ≠ w) (hl : Leads x w) (order : List Work) :
    [x, w].Sublist (arrange order due) := by
  have hx : x ∈ due := hs.subset (by simp)
  have hw : w ∈ due := hs.subset (by simp)
  have hh := head_keeps (due := due) (I := fun p => w ∈ p → [x, w].Sublist p) (by simp) (by
    intro placed v h hv _ hmem
    have pulled : mustPrecedeNow placed x v = true ∧ x ≠ v →
        x ∈ placed ∨ x ∈ worksAhead due placed v := fun ⟨h1, h2⟩ =>
      if hp : x ∈ placed then .inl hp else .inr (mem_worksAhead.2 ⟨hx, h1, h2, hp⟩)
    rcases List.mem_append.1 hmem with hp | hp
    · exact sublist_left (h hp) _
    · rcases List.mem_append.1 hp with ha | ha
      · rcases pulled (hl _ _ (mem_worksAhead.1 ha).2.1) with hq | hq
        · exact pair_sublist hq hp
        · exact sublist_right (sublist_left
            (pair_filter hs (List.mem_filter.1 hq).2 (List.mem_filter.1 ha).2) _) _
      · obtain rfl : w = v := by simpa using ha
        rcases pulled ⟨by simp [mustPrecedeNow, hm], hxw⟩ with hq | hq
        · exact pair_sublist hq hp
        · exact sublist_right (pair_sublist hq ha) _) order
  unfold arrange
  generalize (order.filter fun w => due.contains w).foldl (placeWork due) [] = head at hh
  show List.Sublist _ (head ++ _)
  by_cases h1 : w ∈ head
  · exact sublist_left (hh h1) _
  · by_cases h2 : x ∈ head
    · exact pair_sublist h2 (by simp [hw, h1])
    · exact sublist_right (pair_filter hs (by simp [h2]) (by simp [h1])) _

/-- No work waits for a link reset. -/
theorem linkReset_precedes_none (placed : List Work) (k : Link) (v : Work) :
    mustPrecedeNow placed (.linkReset k) v = false := by
  cases v <;> simp [mustPrecedeNow, mustPrecede]
  rename_i k'
  intro x _ _
  cases k' <;> simp [resetPeers]

theorem linkReset_not_peer {k : Link} {p : Work} (hp : p ∈ resetPeers k) : p ≠ .linkReset k := by
  rintro rfl
  cases k <;> simp [resetPeers] at hp

/-- A link reset stands before all of its link's peers, or behind all of them (R173). -/
theorem arrange_reset {due : List Work} {k : Link} (hr : .linkReset k ∈ due)
    (hs : ∀ p ∈ resetPeers k, p ∈ due → [p, .linkReset k].Sublist due) (order : List Work) :
    (∀ p ∈ resetPeers k, p ∈ due → [.linkReset k, p].Sublist (arrange order due)) ∨
      (∀ p ∈ resetPeers k, p ∈ due → [p, .linkReset k].Sublist (arrange order due)) := by
  have hh := head_keeps (due := due)
    (I := fun l => Work.linkReset k ∉ l ∨
      (∀ p ∈ resetPeers k, p ∈ due → [p, .linkReset k].Sublist l) ∨
      (.linkReset k ∈ l ∧ ∀ p ∈ resetPeers k, p ∈ l → [.linkReset k, p].Sublist l))
    (by simp) (by
      intro placed v h hv _
      by_cases hv' : v = .linkReset k
      · subst hv'
        by_cases ha : (resetPeers k).any placed.contains = true
        · refine .inr (.inl fun p hp hpd => ?_)
          by_cases hpp : p ∈ placed
          · exact pair_sublist hpp (by simp)
          · refine sublist_right (pair_sublist (mem_worksAhead.2
              ⟨hpd, ?_, linkReset_not_peer hp, hpp⟩) (by simp)) _
            simp only [mustPrecedeNow, mustPrecede, ha]
            simpa using .inr hp
        · refine .inr (.inr ⟨by simp, fun p hp hpp => ?_⟩)
          have none : ∀ q, q ∉ worksAhead due placed (.linkReset k) := fun q hq => by
            have := (mem_worksAhead.1 hq).2.1
            simp only [mustPrecedeNow, mustPrecede, Bool.false_or, Bool.and_eq_true] at this
            exact ha this.1
          rcases List.mem_append.1 hpp with h1 | h1
          · exact absurd (List.any_eq_true.2 ⟨p, hp, by simpa using h1⟩) ha
          · rcases List.mem_append.1 h1 with h2 | h2
            · exact absurd h2 (none p)
            · exact absurd (by simpa using h2) (linkReset_not_peer hp)
      · rcases h with h | h | h
        · refine .inl fun hm => ?_
          rcases List.mem_append.1 hm with h1 | h1
          · exact h h1
          · rcases List.mem_append.1 h1 with h2 | h2
            · have := (mem_worksAhead.1 h2).2.1
              rw [linkReset_precedes_none] at this
              cases this
            · exact hv' (by simpa using h2 : Work.linkReset k = v).symm
        · exact .inr (.inl fun p hp hpd => sublist_left (h p hp hpd) _)
        · refine .inr (.inr ⟨by simp [h.1], fun p hp hpp => ?_⟩)
          rcases List.mem_append.1 hpp with h1 | h1
          · exact sublist_left (h.2 p hp h1) _
          · exact pair_sublist h.1 h1) order
  unfold arrange
  generalize (order.filter fun w => due.contains w).foldl (placeWork due) [] = head at hh
  show (∀ p ∈ resetPeers k, p ∈ due → List.Sublist _ (head ++ _)) ∨
    (∀ p ∈ resetPeers k, p ∈ due → List.Sublist _ (head ++ _))
  by_cases hm : .linkReset k ∈ head
  · rcases hh with h | h | h
    · exact absurd hm h
    · exact .inr fun p hp hpd => sublist_left (h p hp hpd) _
    · refine .inl fun p hp hpd => ?_
      by_cases hph : p ∈ head
      · exact sublist_left (h.2 p hp hph) _
      · exact pair_sublist hm (by simp [hpd, hph])
  · refine .inr fun p hp hpd => ?_
    by_cases hph : p ∈ head
    · exact pair_sublist hph (by simp [hr, hm])
    · exact sublist_right (pair_filter (hs p hp hpd) (by simp [hph]) (by simp [hm])) _

/-! ### The orders of the rules -/

/-- A row of due works that has the orders of the rules itself, each link reset behind its peers. -/
structure InRuleOrder (due : List Work) : Prop where
  once : due.Nodup
  ruled : ∀ x w, mustPrecede x w = true → x ∈ due → w ∈ due → [x, w].Sublist due
  reset : ∀ k, ∀ p ∈ resetPeers k, p ∈ due → .linkReset k ∈ due → [p, .linkReset k].Sublist due

theorem Leads.cycleEdge {w : Work} (h : mustPrecede .cycleEdge w = true) : Leads .cycleEdge w := by
  intro placed v hv
  cases w <;> simp [mustPrecede] at h <;> cases v <;> simp [mustPrecedeNow, mustPrecede] at hv ⊢ <;>
    exact hv.1

theorem Leads.serve (d : DriveLink) : Leads (.serve d) (.snapshot d) := by
  intro placed v hv
  cases v <;> simp [mustPrecedeNow, mustPrecede] at hv
  rename_i k
  obtain ⟨h1, h2⟩ := hv
  refine ⟨?_, by simp⟩
  simp only [mustPrecedeNow, mustPrecede, Bool.false_or, Bool.and_eq_true]
  refine ⟨by simpa using h1, ?_⟩
  cases k <;> cases d <;> simp [resetPeers] at h2 ⊢

/-- A work that no rule puts before another, and that is no link's peer of a reset, may come in alone. -/
theorem Leads.of_last {x w : Work} (h : ∀ v, mustPrecede w v = false) (hc : w ≠ .cycleEdge)
    (hp : ∀ k, w ∉ resetPeers k) : Leads x w := by
  intro placed v hv
  cases v <;> simp [mustPrecedeNow, h, hc, hp] at hv

theorem InRuleOrder.before {due : List Work} (hd : InRuleOrder due) {x w : Work} (order : List Work)
    (hm : mustPrecede x w = true) (hxw : x ≠ w) (hl : Leads x w) :
    Before (arrange order due) x w := by
  by_cases hx : x ∈ due
  · by_cases hw : w ∈ due
    · exact .of_sublist (arrange_nodup hd.once _)
        (arrange_before (hd.ruled x w hm hx hw) hm hxw hl _)
    · exact .of_not_mem (.inr (by rwa [mem_arrange]))
  · exact .of_not_mem (.inl (by rwa [mem_arrange]))

/-- Whatever order is asked for, the orders of the rules are kept (log 5). -/
theorem InRuleOrder.kept {due : List Work} (hd : InRuleOrder due) (order : List Work) :
    OrderKept (arrange order due) := by
  have edge (w : Work) (hw : mustPrecede .cycleEdge w = true) :
      Before (arrange order due) .cycleEdge w :=
    hd.before order hw (by rintro rfl; simp [mustPrecede] at hw) (.cycleEdge hw)
  have last {x w : Work} (hm : mustPrecede x w = true) (hxw : x ≠ w)
      (h : ∀ v, mustPrecede w v = false) (hc : w ≠ .cycleEdge) (hp : ∀ k, w ∉ resetPeers k) :
      Before (arrange order due) x w := hd.before order hm hxw (.of_last h hc hp)
  have none {w : Work} (h : w ∉ resetPeers .a ∧ w ∉ resetPeers .b) (k : Link) :
      w ∉ resetPeers k := by
    cases k
    exacts [h.1, h.2, List.not_mem_nil]
  exact
    { once := arrange_nodup hd.once _
      numbered := ⟨fun w hw => edge w (by
          simp at hw
          rcases hw with rfl | rfl | rfl | rfl | rfl | rfl | rfl <;> rfl),
        fun d w hw => edge w (by simp at hw; rcases hw with rfl | rfl | rfl | rfl <;> rfl),
        fun i w hw => edge w (by simp at hw; rcases hw with rfl | rfl | rfl <;> rfl)⟩
      closed := last rfl (by simp) (fun v => by cases v <;> rfl) (by simp)
        (none (by simp [resetPeers]))
      counted := fun d => last (by simp [mustPrecede]) (by simp) (fun v => by cases v <;> rfl) (by simp)
        (none (by simp [resetPeers]))
      stepped := fun i => last (by simp [mustPrecede]) (by simp) (fun v => by cases v <;> rfl) (by simp)
        (none (by simp [resetPeers]))
      served := fun d => hd.before order (by simp [mustPrecede]) (by simp) (.serve d)
      sampled := fun drdy l w hw => by
        simp at hw
        rcases hw with rfl | rfl | rfl <;>
          exact last rfl (by simp) (fun v => by cases v <;> rfl) (by simp) (none (by simp [resetPeers]))
      reset := fun d => by
        have mem (w : Work) :
            w ∈ [Work.serve d, .intake d, .snapshot d] ↔ w ∈ resetPeers d.toLink := by
          cases d <;> rfl
        by_cases hr : .linkReset d.toLink ∈ due
        · rcases arrange_reset hr (fun p hp hpd => hd.reset _ p hp hpd hr) order with h | h
          · refine .inl fun w hw => ?_
            by_cases hwd : w ∈ due
            · exact .of_sublist (arrange_nodup hd.once _) (h w ((mem w).1 hw) hwd)
            · exact .of_not_mem (.inr (by rwa [mem_arrange]))
          · refine .inr fun w hw => ?_
            by_cases hwd : w ∈ due
            · exact .of_sublist (arrange_nodup hd.once _) (h w ((mem w).1 hw) hwd)
            · exact .of_not_mem (.inl (by rwa [mem_arrange]))
        · exact .inl fun w _ => .of_not_mem (.inl (by rwa [mem_arrange]))
      computed := fun g i => last rfl (by simp) (fun v => by cases v <;> rfl) (by simp)
        (none (by simp [resetPeers])) }

end Sys2Proof.Machine
end

