-- ==== Sys2Proof/WellFormed.lean ====
section
/-! DEFINITION. Which commands are well formed. The operands are typed, so that slot, leg and group
numbers are in range by construction; what is left to check is that an order operand names nothing
twice and names only works of its own event. -/

namespace Sys2Proof

/-- The works of a cycle event (06_cycle_timing_and_setpoint_intake.md, Work at a cycle event). -/
def Work.ofCycle : Work → Bool
  | .generation _ | .serve _ | .applyStaged _ | .intake _ | .stale _ | .closeCycle | .allocate
  | .freshness | .countdown | .stopExpiry _ | .faultCopy _ | .snapshot _ | .safetySnapshot => true
  | .toffAccept _ | .legSamples _ | .streamNotice _ | .driverNotice _ | .overcurrent _ | .linkReset _
  | .cycleEdge | .compute _ | .currentSum _ | .legImbalance _ _ | .calibrationComplete _ | .turnOn _ => false

/-- The works a period event can leave (R60 and the table before it). -/
def Work.ofPeriod : Work → Bool
  | .compute _ | .currentSum _ | .legImbalance _ _ | .calibrationComplete _ => true
  | .generation _ | .serve _ | .applyStaged _ | .intake _ | .stale _ | .closeCycle | .allocate
  | .freshness | .countdown | .stopExpiry _ | .faultCopy _ | .snapshot _ | .safetySnapshot
  | .toffAccept _ | .legSamples _ | .streamNotice _ | .driverNotice _ | .overcurrent _ | .linkReset _
  | .cycleEdge | .turnOn _ => false

/-- The works a fast sample event can leave, a cycle event's among them (R76, R117, R118, R144, R173). -/
def Work.ofFastSample : Work → Bool
  | .turnOn _ => false
  | w => !w.ofPeriod

/-- An order operand that names nothing twice, and only works that `own` admits. -/
def orderWellFormed (own : Work → Bool) (order : List Work) : Bool :=
  decide order.Nodup && order.all own

/-- A well-formed command. -/
def Instr.wellFormed : Instr → Bool
  | .fastSampleEvent _ order => orderWellFormed Work.ofFastSample order
  | .cycLossTimeout order => orderWellFormed Work.ofCycle order
  | .internalCycleEvent order => orderWellFormed Work.ofCycle order
  | .periodEvent _ order => orderWellFormed Work.ofPeriod order
  | .setpointStale _ order => decide order.Nodup
  | .vDcSampleEvent order => decide order.Nodup
  | .tempSampleEvent order => decide order.Nodup
  | .deviceReset | .rstReleased | .loadPageRead | .loadComplete | .overcurrent _ | .safetyTimeout
  | .stopCounterExpiry _ | .claim _ | .release _ | .enable _ | .disable _ | .clear _ | .reserve _
  | .readFaults _ | .readGlobal _ | .readParam _ | .writeParam _ | .enterSetup _ | .leaveSetup _
  | .store _ | .storePageDone _ | .forceLeg _ | .unknownKind _ | .transferStart _
  | .driveCommandTelegram _ | .safetyTelegram | .linkReset _ | .calibrationComplete _
  | .currentSum _ | .legImbalance _ _ | .carrierCompareMatch _ _ | .deadTimeTurnOn _
  | .modulatorClockEdge _ _ _ _ | .linkClockEdge _ _ _ => true

end Sys2Proof
end

