-- ==== Sys2Proof/Laws/PerInstr.lean ====
section
/-! SUPPORT. A statement about every command as syntax, one lemma for each constructor: a well-formed
command names nothing twice in its order operand. -/

namespace Sys2Proof.Laws

/-- The works a command's order operand names. -/
def worksNamed : Instr → List Work
  | .fastSampleEvent _ order => order
  | .cycLossTimeout order => order
  | .internalCycleEvent order => order
  | .periodEvent _ order => order
  | _ => []

/-- The slots a command's order operand names. -/
def slotsNamed : Instr → List SlotId
  | .setpointStale _ order => order
  | .vDcSampleEvent order => order
  | .tempSampleEvent order => order
  | _ => []

/-- A well-formed command names no work and no slot twice. -/
def WellFormedOrder.Statement (i : Instr) : Prop :=
  i.wellFormed = true → (worksNamed i).Nodup ∧ (slotsNamed i).Nodup

/-- A well-formed order names nothing twice. -/
theorem nodup_of_orderWellFormed {own : Work → Bool} {order : List Work}
    (h : orderWellFormed own order = true) : order.Nodup := by
  simp only [orderWellFormed, Bool.and_eq_true, decide_eq_true_eq] at h
  exact h.1

theorem WellFormedOrder.deviceReset : WellFormedOrder.Statement .deviceReset :=
  fun _ => ⟨List.nodup_nil, List.nodup_nil⟩

theorem WellFormedOrder.rstReleased : WellFormedOrder.Statement .rstReleased :=
  fun _ => ⟨List.nodup_nil, List.nodup_nil⟩

theorem WellFormedOrder.loadPageRead : WellFormedOrder.Statement .loadPageRead :=
  fun _ => ⟨List.nodup_nil, List.nodup_nil⟩

theorem WellFormedOrder.loadComplete : WellFormedOrder.Statement .loadComplete :=
  fun _ => ⟨List.nodup_nil, List.nodup_nil⟩

theorem WellFormedOrder.fastSampleEvent (pins : FastPins) (order : List Work) : WellFormedOrder.Statement (.fastSampleEvent pins order) :=
  fun h => ⟨nodup_of_orderWellFormed h, List.nodup_nil⟩

theorem WellFormedOrder.overcurrent (leg : LegId) : WellFormedOrder.Statement (.overcurrent leg) :=
  fun _ => ⟨List.nodup_nil, List.nodup_nil⟩

theorem WellFormedOrder.cycLossTimeout (order : List Work) : WellFormedOrder.Statement (.cycLossTimeout order) :=
  fun h => ⟨nodup_of_orderWellFormed h, List.nodup_nil⟩

theorem WellFormedOrder.internalCycleEvent (order : List Work) : WellFormedOrder.Statement (.internalCycleEvent order) :=
  fun h => ⟨nodup_of_orderWellFormed h, List.nodup_nil⟩

theorem WellFormedOrder.setpointStale (link : DriveLink) (order : List SlotId) : WellFormedOrder.Statement (.setpointStale link order) :=
  fun h => ⟨List.nodup_nil, of_decide_eq_true h⟩

theorem WellFormedOrder.safetyTimeout : WellFormedOrder.Statement .safetyTimeout :=
  fun _ => ⟨List.nodup_nil, List.nodup_nil⟩

theorem WellFormedOrder.stopCounterExpiry (slot : SlotId) : WellFormedOrder.Statement (.stopCounterExpiry slot) :=
  fun _ => ⟨List.nodup_nil, List.nodup_nil⟩

theorem WellFormedOrder.claim (link : DriveLink) : WellFormedOrder.Statement (.claim link) :=
  fun _ => ⟨List.nodup_nil, List.nodup_nil⟩

theorem WellFormedOrder.release (link : DriveLink) : WellFormedOrder.Statement (.release link) :=
  fun _ => ⟨List.nodup_nil, List.nodup_nil⟩

theorem WellFormedOrder.enable (link : DriveLink) : WellFormedOrder.Statement (.enable link) :=
  fun _ => ⟨List.nodup_nil, List.nodup_nil⟩

theorem WellFormedOrder.disable (link : DriveLink) : WellFormedOrder.Statement (.disable link) :=
  fun _ => ⟨List.nodup_nil, List.nodup_nil⟩

theorem WellFormedOrder.clear (link : DriveLink) : WellFormedOrder.Statement (.clear link) :=
  fun _ => ⟨List.nodup_nil, List.nodup_nil⟩

theorem WellFormedOrder.reserve (link : DriveLink) : WellFormedOrder.Statement (.reserve link) :=
  fun _ => ⟨List.nodup_nil, List.nodup_nil⟩

theorem WellFormedOrder.readFaults (link : DriveLink) : WellFormedOrder.Statement (.readFaults link) :=
  fun _ => ⟨List.nodup_nil, List.nodup_nil⟩

theorem WellFormedOrder.readGlobal (link : DriveLink) : WellFormedOrder.Statement (.readGlobal link) :=
  fun _ => ⟨List.nodup_nil, List.nodup_nil⟩

theorem WellFormedOrder.readParam (link : DriveLink) : WellFormedOrder.Statement (.readParam link) :=
  fun _ => ⟨List.nodup_nil, List.nodup_nil⟩

theorem WellFormedOrder.writeParam (link : DriveLink) : WellFormedOrder.Statement (.writeParam link) :=
  fun _ => ⟨List.nodup_nil, List.nodup_nil⟩

theorem WellFormedOrder.enterSetup (link : DriveLink) : WellFormedOrder.Statement (.enterSetup link) :=
  fun _ => ⟨List.nodup_nil, List.nodup_nil⟩

theorem WellFormedOrder.leaveSetup (link : DriveLink) : WellFormedOrder.Statement (.leaveSetup link) :=
  fun _ => ⟨List.nodup_nil, List.nodup_nil⟩

theorem WellFormedOrder.store (link : DriveLink) : WellFormedOrder.Statement (.store link) :=
  fun _ => ⟨List.nodup_nil, List.nodup_nil⟩

theorem WellFormedOrder.storePageDone (readBack : Page) : WellFormedOrder.Statement (.storePageDone readBack) :=
  fun _ => ⟨List.nodup_nil, List.nodup_nil⟩

theorem WellFormedOrder.forceLeg (link : DriveLink) : WellFormedOrder.Statement (.forceLeg link) :=
  fun _ => ⟨List.nodup_nil, List.nodup_nil⟩

theorem WellFormedOrder.unknownKind (link : DriveLink) : WellFormedOrder.Statement (.unknownKind link) :=
  fun _ => ⟨List.nodup_nil, List.nodup_nil⟩

theorem WellFormedOrder.transferStart (link : Link) : WellFormedOrder.Statement (.transferStart link) :=
  fun _ => ⟨List.nodup_nil, List.nodup_nil⟩

theorem WellFormedOrder.driveCommandTelegram (link : DriveLink) : WellFormedOrder.Statement (.driveCommandTelegram link) :=
  fun _ => ⟨List.nodup_nil, List.nodup_nil⟩

theorem WellFormedOrder.safetyTelegram : WellFormedOrder.Statement .safetyTelegram :=
  fun _ => ⟨List.nodup_nil, List.nodup_nil⟩

theorem WellFormedOrder.linkReset (link : Link) : WellFormedOrder.Statement (.linkReset link) :=
  fun _ => ⟨List.nodup_nil, List.nodup_nil⟩

theorem WellFormedOrder.periodEvent (group : GroupId) (order : List Work) : WellFormedOrder.Statement (.periodEvent group order) :=
  fun h => ⟨nodup_of_orderWellFormed h, List.nodup_nil⟩

theorem WellFormedOrder.calibrationComplete (slot : SlotId) : WellFormedOrder.Statement (.calibrationComplete slot) :=
  fun _ => ⟨List.nodup_nil, List.nodup_nil⟩

theorem WellFormedOrder.currentSum (slot : SlotId) : WellFormedOrder.Statement (.currentSum slot) :=
  fun _ => ⟨List.nodup_nil, List.nodup_nil⟩

theorem WellFormedOrder.legImbalance (slot : SlotId) (phase : Phase) : WellFormedOrder.Statement (.legImbalance slot phase) :=
  fun _ => ⟨List.nodup_nil, List.nodup_nil⟩

theorem WellFormedOrder.carrierCompareMatch (leg : LegId) (slope : Slope) : WellFormedOrder.Statement (.carrierCompareMatch leg slope) :=
  fun _ => ⟨List.nodup_nil, List.nodup_nil⟩

theorem WellFormedOrder.deadTimeTurnOn (leg : LegId) : WellFormedOrder.Statement (.deadTimeTurnOn leg) :=
  fun _ => ⟨List.nodup_nil, List.nodup_nil⟩

theorem WellFormedOrder.vDcSampleEvent (order : List SlotId) : WellFormedOrder.Statement (.vDcSampleEvent order) :=
  fun h => ⟨List.nodup_nil, of_decide_eq_true h⟩

theorem WellFormedOrder.tempSampleEvent (order : List SlotId) : WellFormedOrder.Statement (.tempSampleEvent order) :=
  fun h => ⟨List.nodup_nil, of_decide_eq_true h⟩

theorem WellFormedOrder.modulatorClockEdge (group : GroupId) (ibs : BitVec 6) (tbs : Bool) (vbs : Bool) : WellFormedOrder.Statement (.modulatorClockEdge group ibs tbs vbs) :=
  fun _ => ⟨List.nodup_nil, List.nodup_nil⟩

theorem WellFormedOrder.linkClockEdge (link : Link) (edge : Edge) (sdi : Bool) : WellFormedOrder.Statement (.linkClockEdge link edge sdi) :=
  fun _ => ⟨List.nodup_nil, List.nodup_nil⟩

end Sys2Proof.Laws
end

