-- ==== Sys2Proof/Tests/Slice0.lean ====
section
/-! SUPPORT. Tests: ill-formed commands refused, the spec's worked cases and examples, and for each
statement with hypotheses a state and operands that meet them. Every expected number is one the spec
prints, named by its place. -/

namespace Sys2Proof.Tests

open Sys2Proof.Machine

-- One test is checked before the next is read, so that few are in memory at once.
set_option Elab.async false

/-! ### Well-formedness: an ill-formed command for each check -/

theorem test_fast_order_repeats :
    (Instr.fastSampleEvent ⟨false, false, 0#24, false, false, false⟩
      [.allocate, .allocate]).wellFormed = false := by decide

theorem test_fast_order_foreign :
    (Instr.fastSampleEvent ⟨false, false, 0#24, false, false, false⟩ [.compute 0]).wellFormed = false := by
  decide

theorem test_loss_order_repeats : (Instr.cycLossTimeout [.freshness, .freshness]).wellFormed = false := by
  decide

theorem test_loss_order_foreign : (Instr.cycLossTimeout [.cycleEdge]).wellFormed = false := by decide

theorem test_internal_order_repeats :
    (Instr.internalCycleEvent [.serve .a, .serve .a]).wellFormed = false := by decide

theorem test_internal_order_foreign :
    (Instr.internalCycleEvent [.overcurrent 3]).wellFormed = false := by decide

theorem test_period_order_repeats :
    (Instr.periodEvent 0 [.currentSum 1, .currentSum 1]).wellFormed = false := by decide

theorem test_period_order_foreign : (Instr.periodEvent 0 [.closeCycle]).wellFormed = false := by decide

theorem test_stale_order_repeats : (Instr.setpointStale .a [1, 1]).wellFormed = false := by decide

theorem test_vdc_order_repeats : (Instr.vDcSampleEvent [7, 7]).wellFormed = false := by decide

theorem test_temp_order_repeats : (Instr.tempSampleEvent [0, 3, 0]).wellFormed = false := by decide

theorem test_orders_well_formed :
    (Instr.cycLossTimeout [.snapshot .b, .serve .a]).wellFormed = true ∧
      (Instr.vDcSampleEvent [7, 0]).wellFormed = true := by decide

/-! ### The current loop -/

/-- The entries printed in R36. -/
theorem test_sine_entries :
    sinAu 4096#16 = 12539 ∧ sinAu 8192#16 = 23170 ∧ sinAu 16384#16 = 32767 ∧
      sinAu 24576#16 = 23170 ∧ sinAu 32768#16 = 0 ∧ sinAu 49152#16 = -32767 ∧
      sinAu 63#16 = 0 ∧ cosAu 8192#16 = 23170 := by decide

/-- The inputs of "One Period of a Feed Axis" (chapter 2). -/
def feedAxis : LoopIn :=
  { ia := 1200, ib := -300, ic := -880, theta := 8192#16, omega := 80, idW := 0, iqW := 2000
    k := 24576, kr := 32768, vdc := 9600, vUv := 6400, iMax := 8000, lTemp := 8000, lPerm := none
    kpD := 512, kpQ := 512, kiD := 6554, kiQ := 6554, vlim := 30146, dtcAmp := 20, dtcI := 200
    intD := -2000000, intQ := 40000000, hp := 3125, mp := 50 }

/-- What that worked case prints. -/
theorem test_feed_axis :
    loopCompute feedAxis =
      { id := 0, iq := 1500, uMax := 5098, uD := -2299, uQ := 4550, iD := 1080, iQ := -607
        cU := 175, cV := 2949, cW := 2051, intD := -9078320, intQ := 40000000, j := -818
        vsat := true, tempLimited := false, regenLimited := false } := by decide +kernel

/-- "Closing a Cycle" (chapter 2). -/
theorem test_cycle_close :
    let x := Slot.closeCycle { Slot.reset with acc := ⟨6414, -36, 12004, 8⟩, marks := ⟨true, false, false⟩ }
    x.avgD = -4 ∧ x.avgQ = 1500 ∧ avgDc x.handed = 801 ∧ x.reported.vsat = true ∧
      x.marks.vsat = false ∧ avgDc (-6414, 8) = -801 := by decide

/-- The examples of R34 and R35. -/
theorem test_setpoint_examples :
    limitD 4000 (-1500) = -1500 ∧ limitQ 4000 (-1500) 5000 = 3708 ∧
      scaleQ (-1501) (-1) 24576 32768 = -1125 := by decide

/-! ### The DC link, the temperature, the budget -/

/-- The samples of "A Spindle Braking into the Link" (chapter 5). -/
theorem test_regen_scale :
    regenScale 24400 24320 25600 = 30720 ∧ regenScale 24960 24320 25600 = 16384 ∧
      regenScale 25300 24320 25600 = 7680 ∧ regenScale 25700 24320 25600 = 0 ∧
      regenScale 24800 24320 25600 = 20480 ∧ regenScale 24000 24320 25600 = 32768 := by decide

/-- Samples 1, 2, 9 and 10 of the same example. -/
theorem test_chopper_band :
    chopperNext false 23500 23680 23040 = false ∧ chopperNext false 23700 23680 23040 = true ∧
      chopperNext true 23300 23680 23040 = true ∧ chopperNext true 23000 23680 23040 = false := by
  decide

/-- The example of R87: 8375 ones read 740 tu; a stuck stream reads T_TRIP. -/
theorem test_temperature :
    Group.tempOf { Group.reset with ones := 8375, runLen := 4 } 800 = 740 ∧
      Group.tempOf { Group.reset with ones := 0, runLen := 128 } 800 = 800 := by decide

/-- The example of R106. -/
theorem test_demand_example : demandOf 3000 24576 0 = 4000 ∧ demandOf 3000 0 77 = 77 := by decide

/-- "A Worked Allocation" (chapter 5): the shares, and the k_s of the spindle. -/
theorem test_worked_allocation :
    (secondStage [(0, Share.first ⟨0, 1000, 800, 32768, 0⟩), (1, Share.first ⟨0, 1500, 1800, 32768, 0⟩),
        (2, Share.first ⟨1, 500, 0, 32768, 0⟩), (5, Share.first ⟨3, 2000, 4000, 24576, 0⟩)] 2100).map
        (fun p => (p.1, p.2.given)) = [(0, 800), (1, 1800), (2, 0), (5, 3800)] ∧
      targetScale 4000 3800 = 31129 ∧ nextScale 31129 24576 2048 = 26624 := by decide +kernel

/-! ### The image and the telegrams -/

/-- The CRC register after a word. -/
def crcWord (r : Word) (w : Word) : Word := crcByte (crcByte r (hiByte w)) (loByte w)

theorem crc_words (ws : List Word) (r : Word) : crc r (ws.flatMap wordBytes) = ws.foldl crcWord r := by
  induction ws generalizing r with
  | nil => rfl
  | cons w ws ih => exact ih (crcWord r w)

/-- The CRC register after words a to a + n - 1 of the defaulted image. -/
def crcFrom (a n : Nat) (r : Word) : Word := ((List.range' a n).map defaultWord).foldl crcWord r

theorem default_words : Image.default.toList.take 255 = (List.range' 0 255).map defaultWord := by
  apply List.ext_getElem
  · simp
  · intro i h1 h2
    simp [Image.default]

theorem crcFrom_add (a m n : Nat) (r : Word) : crcFrom a (m + n) r = crcFrom (a + m) n (crcFrom a m r) := by
  simp only [crcFrom, ← List.range'_append_1, List.map_append, List.foldl_append]

theorem crc_step (a n : Nat) {r q : Word} (m : Nat) (h : crcFrom a m r = q) :
    crcFrom a (m + n) r = crcFrom (a + m) n q := by
  rw [crcFrom_add, h]

/-- The CRC of the defaulted image that R178 prints. -/
theorem default_crc_of : Image.default.crcOf = 0x3E7D#16 := by
  rw [Image.crcOf, Image.bytes, crc_words, default_words]
  change crcFrom 0 255 0xFFFF#16 = _
  have h0 : crcFrom 0 16 0xFFFF#16 = 0xD9DA#16 := by decide +kernel
  have h1 : crcFrom 16 16 0xD9DA#16 = 0x9236#16 := by decide +kernel
  have h2 : crcFrom 32 16 0x9236#16 = 0x809A#16 := by decide +kernel
  have h3 : crcFrom 48 16 0x809A#16 = 0x096B#16 := by decide +kernel
  have h4 : crcFrom 64 16 0x096B#16 = 0x8237#16 := by decide +kernel
  have h5 : crcFrom 80 16 0x8237#16 = 0x1192#16 := by decide +kernel
  have h6 : crcFrom 96 16 0x1192#16 = 0x052F#16 := by decide +kernel
  have h7 : crcFrom 112 16 0x052F#16 = 0x9BDB#16 := by decide +kernel
  have h8 : crcFrom 128 16 0x9BDB#16 = 0x3A9B#16 := by decide +kernel
  have h9 : crcFrom 144 16 0x3A9B#16 = 0x22D9#16 := by decide +kernel
  have h10 : crcFrom 160 16 0x22D9#16 = 0x9E5C#16 := by decide +kernel
  have h11 : crcFrom 176 16 0x9E5C#16 = 0x9DFA#16 := by decide +kernel
  have h12 : crcFrom 192 16 0x9DFA#16 = 0x6FD3#16 := by decide +kernel
  have h13 : crcFrom 208 16 0x6FD3#16 = 0x9D7D#16 := by decide +kernel
  have h14 : crcFrom 224 16 0x9D7D#16 = 0xD9CC#16 := by decide +kernel
  have h15 : crcFrom 240 15 0xD9CC#16 = 0x3E7D#16 := by decide +kernel
  refine (crc_step 0 239 16 h0).trans ?_
  refine (crc_step 16 223 16 h1).trans ?_
  refine (crc_step 32 207 16 h2).trans ?_
  refine (crc_step 48 191 16 h3).trans ?_
  refine (crc_step 64 175 16 h4).trans ?_
  refine (crc_step 80 159 16 h5).trans ?_
  refine (crc_step 96 143 16 h6).trans ?_
  refine (crc_step 112 127 16 h7).trans ?_
  refine (crc_step 128 111 16 h8).trans ?_
  refine (crc_step 144 95 16 h9).trans ?_
  refine (crc_step 160 79 16 h10).trans ?_
  refine (crc_step 176 63 16 h11).trans ?_
  refine (crc_step 192 47 16 h12).trans ?_
  refine (crc_step 208 31 16 h13).trans ?_
  refine (crc_step 224 15 16 h14).trans ?_
  exact h15

theorem test_default_crc_stored : Image.default[255] = 0x3E7D#16 := by
  simp [Image.default, defaultWord, defaultCrc]

/-- A value clamped into its range, one refused, one taken as it stands (R179, R181). -/
theorem test_examine :
    (Item.global 1).examine 0#16 = some (1#16, true) ∧
      (Item.slot 2 4).examine 0xFFFF#16 = some (0x8000#16, true) ∧
      (Item.global 7).examine 0xFFFF#16 = some (0xFFFF#16, false) ∧
      (Item.global 25).examine 0x0800#16 = none ∧ (Item.slot 0 15).examine 8#16 = none ∧
      (Item.leg 0).examine 0x1830#16 = none := by decide

/-- Identifiers: the high byte is the area, the low byte the item (R179). -/
theorem test_identifiers :
    ParamId.ofWord 0x001F#16 = some .signature ∧ ParamId.ofWord 0x001B#16 = none ∧
      ParamId.ofWord 0x0117#16 = some (.item (.leg 23)) ∧ ParamId.ofWord 0x0118#16 = none ∧
      ParamId.ofWord 0x090F#16 = some (.item (.slot 7 15)) ∧ ParamId.ofWord 0x0A00#16 = none := by decide

/-! ### Small states -/

/-- A part in OPERATE, all else as after reset. -/
def op : State := { State.reset with mode := .operate }

/-- A slot in RUN, owned by Drive Link A, on legs 0, 1 and 2 of G0. -/
def runSlot : Slot :=
  { Slot.reset with
    state := .run, owner := some .a, group := some 0
    seats := [⟨0, .u, 0⟩, ⟨1, .v, 0⟩, ⟨2, .w, 0⟩] }

/-- Slot 0 in RUN, with works owed. -/
def running (ws : List Work) : State := { op.setSlot 0 runSlot with agenda := ws }

theorem running_slot (ws : List Work) : (running ws).slot 0 = runSlot := by
  show (op.setSlot 0 runSlot).slot 0 = runSlot
  simp

/-- A request of a kind with its target and arguments. -/
def ask (k target : Byte) (arg1 arg2 : Word) : Request := ⟨k, 9#8, target, 0#8, arg1, arg2⟩

/-- A request of a kind, for target 0. -/
def req (k : Byte) : Request := ask k 0#8 0#16 0#16

/-- A state whose cycle event owes Drive Link A the serving of one request. -/
def serving (s : State) (r : Request) : State :=
  { s.setDrive .a { s.drive .a with queue := [r], hold := .free } with agenda := [.serve .a] }

theorem serving_serves (s : State) (r : Request) (h : s.mode = .setup ∨ s.mode = .operate) :
    (serving s r).Serves .a r [] [] :=
  ⟨rfl, h, by show ((s.setDrive .a _).drive .a).hold = _; simp,
    by show ((s.setDrive .a _).drive .a).queue = _; simp⟩

/-! ### Single commands -/

/-- The third and eighth rows of "Making Reservations" (chapter 5), Drive Link A owning slots 0 and 1 and
Drive Link B slot 7. -/
theorem test_reserve_over_budget :
    let x (d : DriveLink) (n : Nat) : Slot := { Slot.reset with state := .claimed, owner := some d, resv := n }
    let s := ((op.setSlot 0 (x .a 3000)).setSlot 1 (x .a 0)).setSlot 7 (x .b 4000)
    (doReserve .a ⟨6#8, 0#8, 1#8, 0#8, 1500#16, 0#16⟩ s).2 = ⟨.overBudget, 1000#16, 0#16⟩ ∧
      (doReserve .a ⟨6#8, 0#8, 1#8, 0#8, 40000#16, 0#16⟩ s).2 = ⟨.badValue, 0#16, 2#16⟩ ∧
      (doReserve .b ⟨6#8, 0#8, 0#8, 0#8, 500#16, 0#16⟩ s).2 = ⟨.notOwner, 1#16, 0#16⟩ := by
  decide +kernel

/-- R56: HIGH to LOW turns the high side off at once and the low side on DT counts later. -/
theorem test_dead_time :
    let x : Leg := { Leg.reset with target := .high, gh := true }
    (x.setTarget 100 500 .low).gh = false ∧ (x.setTarget 100 500 .low).gl = false ∧
      (x.setTarget 100 500 .low).pendingOn = some ⟨.low, 600⟩ := by decide

/-- R57, R61: with HP = 3125 and C = 155 the leg is HIGH from count 2970 to count 3279. -/
theorem test_ideal_state :
    idealState 155 3125 2969 = .low ∧ idealState 155 3125 2970 = .high ∧
      idealState 155 3125 3279 = .high ∧ idealState 155 3125 3280 = .low ∧
      idealState 0 3125 3125 = .low ∧ idealState 3125 3125 0 = .high := by decide

/-- R117, R144: a level must be seen at two sample instants in a row. -/
theorem test_two_sample_filter :
    filterLevel none false true = false ∧ filterLevel (some false) false true = false ∧
      filterLevel (some true) false true = true := by decide

/-- A leg of C = `c` that rose at count 3075 with DT = 100: its switch comes on at count 3175. -/
def pulse (c : Nat) : State :=
  let x : Leg := { Leg.reset with
    func := .phase 0 .u 0, drive := .switching, active := some c, target := .high
    pendingOn := some ⟨.high, 3175⟩ }
  { op.setLeg 0 x with now := 3100, image := op.image.set 13 100#16 }

/-- R62: a pulse of exactly DT counts (C = 50) never turns the switch on; one count more does, as the clock
leaves the count. -/
theorem test_pulse_of_dead_time :
    let s (c : Nat) : State := (pulse c).deadTimeTurnOn 0
    ((s 50).leg 0).target = .low ∧ (((s 50).arrive 3176).leg 0).gh = false ∧
      (s 51).agenda = [.turnOn 0] ∧ ((s 51).leg 0).gh = false ∧
      (((s 51).arrive 3176).leg 0).gh = true := by decide +kernel

/-- R56, R65: TOFF accepted LOW at the count at which the switch would come on cancels it, although the
turn-on was taken first. -/
theorem test_turn_on_cancelled :
    let s : State := perform (.toffAccept false) ((pulse 51).deadTimeTurnOn 0)
    (s.leg 0).target = .none ∧ ((s.arrive 3176).leg 0).gh = false := by decide +kernel

/-- R173: a reset that arises when a cycle event of the instant has served its link, and still owes the
snapshot, comes behind the snapshot; one that finds the whole of it owed may come first. -/
theorem test_reset_amid_cycle :
    let s (ws : List Work) : State :=
      { (op.setDrive .b { op.drive .b with queue := [req 1#8] }).setPort .a
          { op.port .a with resetCount := 200 } with agenda := ws }
    ((s [.serve .b, .intake .a, .snapshot .a]).post [] [.linkReset .a]).agenda =
        [.serve .b, .intake .a, .snapshot .a, .linkReset .a] ∧
      ((s [.serve .b, .serve .a, .intake .a, .snapshot .a]).post [] [.linkReset .a]).agenda =
        [.linkReset .a, .serve .b, .serve .a, .intake .a, .snapshot .a] := by decide +kernel

/-- R22: a write at once takes the place of the value that waits; one staged beside it is applied. -/
theorem test_write_replaces_waiting :
    let s := op.setSlot 7 { Slot.reset with
      staged := #v[some 5#16, some 6#16, none, none, none, none, none] }
    let t := s.writeItem (.slot 7 0) 9#16
    (t.slot 7).staged[0] = none ∧ (t.slot 7).staged[1] = some 6#16 ∧
      (t.applyStaged 7).image[168] = 9#16 ∧ (t.applyStaged 7).image[169] = 6#16 := by decide +kernel

/-- R173: a reset at a cycle event comes before all that its link does there or after all of it. -/
theorem test_reset_order :
    let due : List Work := [.cycleEdge, .serve .a, .intake .a, .snapshot .a, .linkReset .a]
    arrange [.serve .a, .linkReset .a, .snapshot .a] due = due ∧
      arrange [.linkReset .a] due = [.linkReset .a, .cycleEdge, .serve .a, .intake .a, .snapshot .a] := by
  decide

/-- R118, R158, R162: a snapshot may come before CYC_LOST is set, but the cycle is numbered first. -/
theorem test_generation_order :
    arrange [.snapshot .a] [.cycleEdge, .generation true, .serve .a, .snapshot .a] =
      [.cycleEdge, .serve .a, .snapshot .a, .generation true] := by decide

/-- R53: slot 7, phase W, index 1, and slot 5, phase V, index 0. -/
theorem test_leg_entry :
    legFuncOf 0x1721#16 = .phase 7 .w 1 ∧ legFuncOf 0x1510#16 = .phase 5 .v 0 := by decide

/-- R2: legs 6 to 8 made slot 3, in another order of phases, are its leg set in leg order, in G1. -/
theorem test_leg_set :
    let img : Image := ((Image.default.set 38 0x1320#16).set 39 0x1300#16).set 40 0x1310#16
    img.seats 3 = [⟨6, .w, 0⟩, ⟨7, .u, 0⟩, ⟨8, .v, 0⟩] ∧ img.slotGroup 3 = some 1 ∧
      img.seats 2 = [] ∧ img.slotGroup 2 = none := by decide +kernel

/-- R160, R161: the FLT line is low after reset, and high with every flag in the set masked. -/
theorem test_flt_masked :
    State.reset.fltLow = true ∧
      ({ State.reset with image := Image.default.set 26 0x0003#16 } : State).fltLow = false := by
  decide +kernel

/-- R178: page 7 is read 2 ms after the release of RST. -/
theorem test_page_instant :
    ({ State.reset with mode := .loading, loadPage := 7 }.loadPageRead).now = 200000 := by decide +kernel

/-- R137, R147: the step that reaches SAFE_TMO sets SAFETY_LOST with it; a telegram comes before both or
after both. -/
theorem test_freshness_reaches_timeout :
    let s : State := { op with safety := { op.safety with freshSeen := true, freshness := 7 } }
    (s.stepFreshness).safety.freshness = 8 ∧ (s.stepFreshness).globalSet &&& 0x0010#16 = 0x0010#16 := by
  decide +kernel

/-! ### Witnesses: the step, reset and start-up -/

theorem witness_StepTakesFrontCommand :
    (∃ s : State, s.pending = [.safetyTelegram]) ∧ State.reset.pending = [] :=
  ⟨⟨{ op with pending := [.safetyTelegram] }, rfl⟩, rfl⟩

theorem witness_CommandsWithoutCauseDoNothing :
    (Work.overcurrent 23 ∉ op.agenda ∧ Work.serve .b ∉ op.agenda ∧ Work.stale .a ∉ op.agenda ∧
      op.mode ≠ .reset ∧ op.mode ≠ .loading ∧ op.loadPage ≠ 8 ∧ op.storeOp = none ∧
      (op.leg 23).pendingOn = none ∧ (op.port .s).selLow = false) ∧
    State.reset.mode = .reset ∧ State.reset.mode ≠ .operate ∧
    ((op.setPort .s { op.port .s with selLow := true }).port .s).selLow = true := by
  decide

theorem witness_DeviceResetSetsSlots :
    let s := { op.setPort .b { op.port .b with resetCount := 200 } with agenda := [.linkReset .b] }
    s.agenda = [.linkReset DriveLink.b.toLink] ∧ (s.port DriveLink.b.toLink).resetCount = 200 := by
  decide

/-- RESET, LOADING before the first page and before the last, and LOADING with all of them read. -/
theorem witness_LoadingReadsPages :
    let s (n : Nat) : State := { State.reset with mode := .loading, loadPage := n }
    State.reset.mode = .reset ∧ (s 0).mode = .loading ∧ (s 0).agenda = [] ∧ (s 0).loadPage < 8 ∧
      (s 7).loadPage < 8 ∧ 8 ≤ (s 8).loadPage := by decide

/-- LOADING with all eight pages read. -/
def loaded (mark : Bool) (pages : Vector Page 8) : State :=
  { State.reset with mode := .loading, loadPage := 8, loadBuf := pages, nv := ⟨pages, mark⟩ }

/-- The pages of the defaulted image. -/
def defaultPages : Vector Page 8 := Vector.ofFn fun p => Image.default.page p

/-- A store whose mark is not set, and one whose mark is set over zeros, of which K_RISE is out of range. -/
theorem witness_LoadCompleteJudgesImage_bad :
    (loaded false blankPages).mode = .loading ∧ (loaded false blankPages).loadPage = 8 ∧
      (loaded false blankPages).agenda = [] ∧ ¬(loaded false blankPages).nv.mark = true ∧
      ¬(imageOfPages (loaded true blankPages).loadBuf).IsGood ∧
      ∀ i, ((loaded true blankPages).slot i).state.isActive = false :=
  ⟨rfl, rfl, rfl, by decide, fun h => absurd (h.globals 1).1 (by decide +kernel), by decide⟩

theorem default_pages_image : imageOfPages defaultPages = Image.default := by
  ext i hi
  simp [imageOfPages, defaultPages, Image.page, Nat.div_add_mod]

theorem default_values_ok :
    allItems.all (fun i => i.valueOk (Image.default.item i)) = true := by
  simp only [Image.default_item]
  decide +kernel

theorem default_validates : Image.default.validate = none := by decide +kernel

theorem default_leg_func : ∀ l, Image.default.legFunc l = .unused := by
  simp only [Image.legFunc, Image.default_item]
  decide +kernel

theorem default_partner : ∀ i, Image.default.partner i = none := by
  simp only [Image.partner, Image.slotNat, Image.default_item]
  decide +kernel

theorem default_names_none (i : SlotId) (l : LegId) : ¬Image.default.Names i l := by
  rintro ⟨ph, ix, h⟩
  rw [default_leg_func] at h
  cases h

/-- No check of R182 fails on the defaulted image. -/
theorem default_fails_none (code n : Nat) : ¬Image.default.Fails code n := by
  rintro (⟨-, i, -, ⟨l, h⟩, -⟩ | ⟨-, a, b, ⟨-, m, ph, ix, h, -⟩, -⟩ | ⟨-, i, -, a, b, h, -⟩ | ⟨-, i, j, -, h, -⟩ |
    ⟨-, -, h⟩ | ⟨-, -, h⟩ | ⟨-, g, -, h⟩)
  · exact default_names_none i l h
  · exact default_names_none m a ⟨ph, ix, h⟩
  · exact default_names_none i a h
  · rw [default_partner] at h
    cases h
  · revert h; decide +kernel
  · revert h; decide +kernel
  · revert h g; decide +kernel

theorem default_is_good : Image.default.IsGood where
  crc := by rw [← Image.crcOf_eq, default_crc_of, test_default_crc_stored]
  globals g := (Item.valueOk_iff _ _).1 (((allItems_all _).1 default_values_ok).1 g)
  legs l := (Item.valueOk_iff _ _).1 (((allItems_all _).1 default_values_ok).2.1 l)
  slots m j := (Item.valueOk_iff _ _).1 (((allItems_all _).1 default_values_ok).2.2 m j)
  checks := default_fails_none

theorem witness_LoadCompleteJudgesImage_good :
    (loaded true defaultPages).mode = .loading ∧ (loaded true defaultPages).loadPage = 8 ∧
      (loaded true defaultPages).agenda = [] ∧ (loaded true defaultPages).nv.mark = true ∧
      (imageOfPages (loaded true defaultPages).loadBuf).IsGood :=
  ⟨rfl, rfl, rfl, rfl, default_pages_image ▸ default_is_good⟩

/-- A STORE in flight on Drive Link A, at a page of an image of zeros. -/
def storing (page : Fin 8) : State :=
  let s := op.setDrive .a { op.drive .a with queue := [req 13#8], hold := .inFlight }
  { s with mode := .setup, storeOp := some ⟨.a, imageOfPages blankPages, page⟩ }

theorem storing_queue (page : Fin 8) : ((storing page).drive .a).queue = [req 13#8] := by
  show ((op.setDrive .a _).drive .a).queue = _
  simp

theorem zeros_page (page : Fin 8) : (imageOfPages blankPages).page page = Vector.replicate 32 0#16 := by
  ext i hi
  simp [imageOfPages, Image.page, blankPages]

/-- A page of zeros verifies, one with a set bit does not; page 6 and page 7. -/
theorem witness_PageDoneAdvancesStore :
    (storing 6).storeOp = some ⟨.a, imageOfPages blankPages, 6⟩ ∧
      ((storing 6).drive .a).queue = req 13#8 :: [] ∧
      Vector.replicate 32 0#16 = (imageOfPages blankPages).page 6 ∧
      (Vector.replicate 32 0#16).set 31 1#16 ≠ (imageOfPages blankPages).page 6 ∧
      Vector.replicate 32 0#16 = (imageOfPages blankPages).page 7 ∧ (6 : Fin 8).val < 7 ∧
      (7 : Fin 8).val = 7 :=
  ⟨rfl, storing_queue 6, (zeros_page 6).symm, by rw [zeros_page]; decide, (zeros_page 7).symm, by decide,
    rfl⟩

/-! ### Witnesses: fast samples, faults -/

/-- TOFF seen LOW once after an accepted HIGH, a reset count at 199 with its line at 1, a leg of a leg set
and one of none, a fast value that stands at IOC and one beyond it; a first edge of CYC at its second
sample. -/
theorem witness_FastSampleTakesSamples :
    let x (v : Int) : Leg := { Leg.reset with offset := -v, window := [] }
    let s (v : Int) : State :=
      { (running []).setLeg 0 (x v) with
        safety := { op.safety with toffLast := some false, toffHigh := true } }
    let r := op.setPort .a { op.port .a with selLow := true, resetCount := 199 }
    (s 0).mode ≠ .reset ∧ (s 0).agenda = [] ∧ (s 0).safety.toffLast = some false ∧
      (s 0).safety.toffHigh ≠ false ∧ ((s 0).slotOfLeg 0).isSome = true ∧ (s 0).slotOfLeg 23 = none ∧
      sat16 (((s 32767).leg 0).fastRaw - ((s 32767).leg 0).offset) = 32767 ∧
      (s 32767).image.ioc 0 ≤ 32767 ∧
      (r.port .a).selLow = true ∧ (r.port .a).clockSeen = false ∧ (r.port .a).rx ≠ .waitDeselect ∧
      (r.port .a).resetCount + 1 = 200 ∧
      (let e : State := { op with cyc := { op.cyc with lastSample := some true } }
      e.cyc.level = false ∧ e.cyc.firstMade = false ∧
        Work.cycleEdge ∈ (e.lineSamples ⟨true, true, 0#24, false, false, false⟩).fastWorks e
          ⟨true, true, 0#24, false, false, false⟩) := by
  decide +kernel

/-- An edge accepted T_CYC/2 after the reference instant, and one a count earlier, with the first event
made. -/
theorem witness_EdgeOwesCycleEvent :
    let s (t : Nat) : State :=
      { op with now := t, cyc := { op.cyc with level := true, firstMade := true } }
    op.cyc.level = false ∧ (s 25000).cyc.level = true ∧ 50 * (s 25000).image.tCyc = 25000 ∧
      (s 25000).edgeCounts = true ∧ (s 24999).edgeCounts = false ∧
      Work.closeCycle ∈ (s 25000).cycleWorks := by
  decide +kernel

/-- TOFF accepted LOW on a PHASE, a FORCED and a CHOPPER leg, on an active slot and on none; TOFF accepted HIGH on slots in OFF_HELD under each permission. -/
theorem witness_ToffLowTakesTorque :
    let s (q : Permission) : State := op.setSlot 7 { runSlot with state := .offHeld, perm := q }
    let f (g : LegFunc) : State := (running []).setLeg 2 { Leg.reset with func := g, active := some 9 }
    ((f (.phase 0 .w 0)).leg 2).func.heldByToff = true ∧ ((f .forced).leg 2).func.heldByToff = true ∧
      ((f .chopper).leg 2).func.heldByToff = false ∧
      (((f .chopper).slot 0).seats.any fun x => x.leg = 2) = true ∧
      (∀ i, (s .stop |>.slot i).seats.all (fun x => x.leg ≠ 23) = true) ∧
      ((running []).slot 0).state.isActive = true ∧ ((running []).slot 1).state.isActive = false ∧
      ((s .limit).slot 7).state = .offHeld ∧ ((s .limit).slot 7).perm = .limit ∧
      ((s .stop).slot 7).perm = .stop ∧ ((s .stop).slot 6).state ≠ .offHeld := by
  decide

/-- Slot 0 in RUN with slot 1 as its partner, in RUN too. -/
def pair : State :=
  (op.setSlot 0 { runSlot with partner := some 1 }).setSlot 1 { runSlot with partner := some 0, seats := [] }

theorem pair_paired : pair.Paired 0 1 := ⟨by decide, by decide⟩

theorem witness_NoticeFaultsSlotAndPartner :
    (pair.slot 0).partner ≠ some 0 ∧ (pair.slot 0).state.isActive = true ∧
      (pair.slot 0).partner = some 1 ∧ (pair.slot 1).state.isActive = true ∧
      (op.slot 7).state.isActive = false ∧ (op.slot 7).partner ≠ some 7 := by
  decide

/-- Slot 0 in RUN, its counts at their limits, with a work owed. -/
def counted (w : Work) : State :=
  let s := op.setSlot 0 { runSlot with check := ⟨4, true, Vector.replicate 3 4, Vector.replicate 3 true⟩ }
  { s.setLeg 0 { s.leg 0 with ocCount := 2 } with agenda := [w] }

/-- The counts stand at their limits, and at 0; runs of 128 and of 127 equal bits, NOT_READY and READY, on leg 0 of
slot 0; leg 23 is of no leg set. -/
theorem witness_CountedNoticesFault :
    let r (n : Nat) (ready : Bool) := (running []).setLeg 0 { Leg.reset with runLen := n, ready := ready }
    (counted (.overcurrent 0)).agenda = [.overcurrent 0] ∧
      (counted (.overcurrent 0)).slotOfLeg 0 = some 0 ∧
      ((counted (.overcurrent 0)).slot 0).state.isActive = true ∧
      ((counted (.overcurrent 0)).leg 0).ocCount = (counted (.overcurrent 0)).image.ocN 0 ∧
      (counted (.currentSum 0)).agenda = [.currentSum 0] ∧
      ((counted (.currentSum 0)).slot 0).state = .run ∧
      ((counted (.currentSum 0)).slot 0).check.sumCount = (counted (.currentSum 0)).image.isumN 0 ∧
      (counted (.legImbalance 0 .w)).agenda = [.legImbalance 0 .w] ∧
      ((counted (.legImbalance 0 .w)).slot 0).check.imbCount[phaseIndex .w] =
        (counted (.legImbalance 0 .w)).image.isumN 0 ∧
      (r 128 true).slotOfLeg 0 = some 0 ∧ 128 ≤ ((r 128 true).leg 0).runLen ∧
      ((r 127 false).leg 0).runLen < 128 ∧ ((r 127 false).leg 0).ready = false ∧
      ((r 128 true).leg 0).ready = true ∧ (r 127 false).slotOfLeg 23 = none ∧
      (running [.overcurrent 0]).agenda = [.overcurrent 0] ∧
      ((running []).leg 0).ocCount ≠ (running []).image.ocN 0 ∧
      ((running []).slot 0).check.sumCount ≠ (running []).image.isumN 0 ∧
      ((running []).slot 0).check.imbCount[phaseIndex .w] ≠ (running []).image.isumN 0 := by
  decide +kernel

/-! ### Witnesses: cycle events -/

theorem witness_SilentLineMakesCycleEvents :
    Work.serve .a ∈ op.cycleWorks ∧ Work.serve .a ∉ { op with mode := .loading }.cycleWorks ∧
      op.mode ≠ .reset ∧ op.agenda = [] ∧ op.cyc.genActive = false ∧
      ({ op with cyc := { op.cyc with genActive := true } } : State).cyc.genActive = true := by
  decide

/-- A slot in STOPPING whose counter was not loaded here, a waiting value in the last entry and a slot
with none, and a freshness step to SAFE_TMO - 1. -/
theorem witness_CycleWorksTakeEffect :
    let s : State :=
      { op.setSlot 7 { runSlot with
          state := .stopping, staged := #v[none, none, none, none, none, none, some 1#16] } with
        safety := { op.safety with freshness := 6 } }
    (s.slot 7).state = .stopping ∧ (s.slot 7).stopLoaded = false ∧
      (s.slot 7).staged[(6 : Fin 7)] ≠ none ∧ (∀ j : Fin 7, (s.slot 6).staged[j] = none) ∧
      s.safety.freshness + 1 < s.image.safeTmo ∧ s.image.safeTmo = 8 := by
  decide +kernel

/-- A counter that stays at SAFE_TMO with SAFETY_LOST set, every permission OFF as it is formed. -/
theorem witness_CycleWorksTakeEffect_lost :
    let s : State :=
      { op with globalSet := 0x0010#16, safety := { op.safety with freshness := 8 } }
    s.image.safeTmo ≤ s.safety.freshness + 1 ∧ s.globalSet &&& 0x0010#16 = 0x0010#16 ∧
      (∀ i, ((s.slot i).perm, (s.slot i).lPerm) = s.formPermission i) := by
  decide +kernel

/-- A slot alone, a pair that the link owns whole, one whose second member the other link owns, and a slot
that the link owns in CLAIMED; a leg of the slot and one of none. -/
theorem witness_StaleFaultsOwnedSlots :
    let c : State := op.setSlot 7 { Slot.reset with state := .claimed, owner := some .a }
    let s := (running [.stale .a]).setDrive .a { op.drive .a with miss := 3 }
    let q : State := pair.setSlot 1 { runSlot with partner := some 0, seats := [], owner := some .b }
    s.agenda = .stale .a :: [] ∧ (s.drive .a).miss = s.image.holdMax ∧
      ((s.slot 0).owner = some .a ∧ (s.slot 0).state.isActive = true) ∧
      (∀ j, (s.slot j).partner ≠ some 0) ∧ pair.Paired 0 1 ∧ (pair.slot 0).owner = some .a ∧
      (pair.slot 1).owner = some .a ∧ (pair.slot 1).state.isActive = true ∧ q.Paired 0 1 ∧
      (q.slot 0).owner = some .a ∧ ¬(q.slot 1).owner = some .a ∧ (q.slot 1).state.isActive = true ∧
      (c.slot 7).owner = some .a ∧ (c.slot 7).state.isActive = false ∧
      ((s.slot 0).seats.any fun x => x.leg = 2) = true ∧
      ((s.slot 0).seats.any fun x => x.leg = 3) = false ∧
      ((s.takeNotice 0 .setpointStale none).slot 0).state = .fault :=
  ⟨rfl, by decide +kernel, by decide, by decide, pair_paired, by decide, by decide, by decide,
    ⟨by decide, by decide⟩, by decide, by decide, by decide, by decide, by decide, by decide, by decide,
    by decide +kernel⟩

/-- Slot 0 in RUN under ALLOW, fresh telegrams seen, a step below SAFE_TMO. -/
theorem witness_SafetyTimeoutStopsSlots :
    let s : State :=
      { op.setSlot 0 { runSlot with perm := .allow, storedPerm := .allow } with
        agenda := [.freshness]
        safety := { op.safety with freshSeen := true, freshness := 7 } }
    s.agenda = .freshness :: [] ∧ s.image.safeTmo ≤ s.safety.freshness + 1 ∧
      s.globalSet &&& 0x0010#16 = 0#16 ∧ (s.slot 0).state = .run ∧ (s.slot 0).perm.permits = true ∧
      (s.stepFreshness.slot 0).perm = .stop := by
  decide +kernel

/-- A slot alone, a pair that has run out together, and a partner that has not. -/
theorem witness_StopExpiryHoldsSlotOff :
    let x : Slot := { runSlot with state := .stopping }
    let a : State := { op.setSlot 0 x with agenda := [.stopExpiry 0] }
    let b : State := { (op.setSlot 0 { x with partner := some 1 }).setSlot 1 x with
      agenda := [.stopExpiry 0] }
    let c : State := { (op.setSlot 0 { x with partner := some 1 }).setSlot 1 { x with stopCount := 1 } with
      agenda := [.stopExpiry 0] }
    a.agenda = [.stopExpiry 0] ∧ (a.slot 0).state = .stopping ∧ (a.slot 0).stopCount = 0 ∧
      (a.slot 0).partner = none ∧ (b.slot 0).partner = some 1 ∧ (b.slot 1).state = .stopping ∧
      (b.slot 1).stopCount = 0 ∧ (c.slot 0).partner = some 1 ∧ (c.slot 1).stopCount ≠ 0 := by
  decide

theorem witness_HaltTurnsLegsOff : ((running []).slot 0).holds 2 = true := by decide

/-- A telegram for slot 0, its follower slot 1 and slot 7, which another link owns, waiting and already
taken; no telegram at all; a miss counter at HOLD_MAX. -/
theorem witness_IntakeTakesTelegram :
    let e (i : SlotId) : Entry := ⟨i, true, false, 100, -100, 0#16, 0⟩
    let tel : Telegram := ⟨7#8, req 0#8, [e 0, e 1, e 7]⟩
    let s (taken : Bool) :=
      (((running []).setSlot 1 { runSlot with seats := [], partner := some 0 }).setSlot 7
        { Slot.reset with state := .claimed, owner := some .b }).setDrive .a
          { op.drive .a with store := some ⟨tel, taken⟩, miss := 3 }
    ((s false).drive .a).store = some ⟨tel, false⟩ ∧ (tel.entries.map Entry.slot).Nodup ∧
      e 0 ∈ tel.entries ∧ ((s false).slot (e 0).slot).owner = some .a ∧
      ((s false).slot 7).owner ≠ some .a ∧ ((s false).slot 1).partner = some 0 ∧ (0 : SlotId) < 1 ∧
      (s false).isFollower 1 = true ∧ (s false).isFollower 0 = false ∧
      ((s true).drive .a).store = some ⟨tel, true⟩ ∧ (op.drive .b).store = none ∧
      ((s true).drive .a).miss = (s true).image.holdMax := by
  decide +kernel

/-! ### Witnesses: the other clocks, carriers, legs -/

/-- A window of 200 ones reads 6400 vu, below V_UV; one of 1024 reads 32767, above V_OV; slot 0 is active
alone and slot 1 is not, and both are in `pair`, a pair by `pair_paired`; leg 23 is a chopper leg of no
slot. -/
theorem witness_VdcSampleActs :
    let s := (running []).setLeg 23 { Leg.reset with func := .chopper }
    s.mode ≠ .reset ∧ s.agenda = [] ∧ min (32 * ((List.replicate 200 true).count true)) 32767 = 6400 ∧
      s.image.vUv = 12800 ∧ min (32 * 1024) 32767 = 32767 ∧ s.image.vOv < 32767 ∧
      (s.slot 0).state.isActive = true ∧ (s.slot 1).state.isActive = false ∧
      (s.leg 23).func = .chopper ∧ (∀ j, (s.slot j).partner ≠ some 0) ∧
      (pair.slot 0).state.isActive = true ∧ (pair.slot 1).state.isActive = true ∧
      ∀ i, (s.slot i).seats.all (fun x => x.leg ≠ 23) = true := by
  decide +kernel

/-- Slot 0 of G0, whose stream has stuck and so reads T_TRIP, is active; slot 7 of G3, which reads T_WARN
(8000 ones) with a run of 127, is not touched by it. -/
theorem witness_TempSampleActs :
    let s := (((running []).setGroup 0 { Group.reset with runLen := 128 }).setGroup 3
      { Group.reset with ones := 8000, runLen := 127 }).setSlot 7 { runSlot with group := some 3 }
    s.mode ≠ .reset ∧ s.agenda = [] ∧ (s.slot 0).group = some 0 ∧ (s.slot 0).state.isActive = true ∧
      (s.group 0).tempOf s.image.tTrip = s.image.tTrip ∧ (s.slot 7).group = some 3 ∧
      (s.group 3).tempOf s.image.tTrip = s.image.tWarn ∧ s.image.tWarn < s.image.tTrip ∧
      (s.slot 7).partner = none ∧ (∀ j, (s.slot j).partner ≠ some 7) ∧ (s.group 3).tempRead = false ∧
      (∀ j, (s.slot j).partner ≠ some 0) ∧
      (let q : State := pair.setSlot 1 { runSlot with partner := some 0, group := some 3 }
      q.Paired 0 1 ∧ (q.slot 0).group = some 0 ∧ (q.slot 1).group = some 3 ∧
        (q.slot 0).state.isActive = true ∧ (q.slot 1).state.isActive = true) := by
  refine ⟨by decide, by decide, by decide, by decide, by decide +kernel, by decide, by decide +kernel,
    by decide +kernel, by decide, by decide, by decide, by decide, ⟨by decide, by decide⟩, by decide,
    by decide, by decide, by decide⟩

/-- A leg of each group's ends, and runs at 1 and at the ceiling. -/
theorem witness_ClockEdgeTakesBits :
    op.mode ≠ .reset ∧ op.agenda = [] ∧ groupOf 0 = 0 ∧ groupOf 5 = 0 ∧ groupOf 6 = 1 ∧ groupOf 23 = 3 ∧
      min (65535 + 1) 65535 = 65535 := by decide

/-- Leg 5 loaded with HP and leg 4 with nothing, leg 3 FORCED; slot 0 of G0 in RUN, its count at ISUM_N with
the sum out of tolerance; slot 1 of G0 CALIBRATING, at its last sample; slot 7 of no group. -/
theorem witness_PeriodEventTakesShadows :
    let x : Leg := { Leg.reset with func := .phase 0 .u 0, shadow := some 3125 }
    let s := ((((running []).setLeg 5 x).setLeg 4 { x with shadow := none }).setLeg 3
      { Leg.reset with func := .forced }).setSlot 1
        { runSlot with state := .calibrating, seats := [⟨5, .u, 0⟩], cal := some ⟨255, [0]⟩ }
    s.mode = .operate ∧ s.agenda = [] ∧ groupOf 5 = 0 ∧ (s.leg 5).func.heldByToff = true ∧
      (s.leg 5).func ≠ .forced ∧ (s.leg 5).shadow = some 3125 ∧ s.image.hp 0 = 3125 ∧
      (s.leg 4).shadow = none ∧ (s.leg 3).func = .forced ∧ groupOf 6 ≠ 0 ∧
      (let u : State := (counted (.compute 0)).setLeg 0 { Leg.reset with offset := -30000 }
      ((u.periodStart 0).slot 0).check.sumCount = u.image.isumN 0) ∧
      ((s.periodStart 0).slot 1).cal.any (fun c => decide (256 ≤ c.count)) = true ∧
      (s.slot 0).group = some 0 ∧ (s.slot 0).state = .run ∧ (s.slot 0).legAt .u 0 = some 0 ∧
      (s.slot 0).legAt .u 1 = none ∧ (s.slot 1).group = some 0 ∧ (s.slot 1).cal.isSome = true ∧
      (s.slot 7).group ≠ some 0 := by
  decide +kernel

theorem witness_GroupComputation :
    (∀ (i j : SlotId) (l : LegId), i ≠ j → (((running []).slot i).seats.any fun x => x.leg = l) = true →
      (((running []).slot j).seats.any fun x => x.leg = l) = false) ∧
    ((running []).slot 0).group = some 0 ∧ ((running []).slot 0).state.isRunning = true ∧
    ((running []).slot 0).phaseOf 2 = some .w ∧ ((running []).slot 0).partner = none ∧
    ((running []).slot 0).anglePresent = false ∧ (pair.slot 1).partner = some 0 := by
  refine ⟨?_, by decide⟩
  have other : ∀ i : SlotId, 0 ≠ i → ((running []).slot i).seats = [] := by decide
  intro i j l hij hi
  by_cases h : 0 = i
  · rw [other j fun hj => hij (h.symm.trans hj)]
    rfl
  · rw [other i h] at hi
    cases hi

/-- Slot 0 in CALIBRATING with 256 samples, alone and as the lead of a pair; sums at and beyond
OFS_MAX. -/
theorem witness_CalibrationCompletes :
    let x (sum : Int) : Slot := { runSlot with
      state := .calibrating, seats := [⟨0, .u, 0⟩], cal := some ⟨256, [sum]⟩ }
    let s (sum : Int) : State := { op.setSlot 0 (x sum) with agenda := [.calibrationComplete 0] }
    let p (sum : Int) : State :=
      { (op.setSlot 0 { x sum with partner := some 1 }).setSlot 1
          { x 0 with partner := some 0, seats := [⟨1, .u, 0⟩] } with
        agenda := [.calibrationComplete 0] }
    ((s 131072).slot 0).state = .calibrating ∧ ((s 131072).slot 0).cal = some ⟨256, [131072]⟩ ∧
      ((s 131072).slot 0).partner = none ∧ (131072 + 128) / 256 = 512 ∧ op.image.ofsMax = 512 ∧
      (s 131072).failingLeg 0 = none ∧ (s 131200).failingLeg 0 = some 0 ∧
      ((p 0).slot 0).partner = some 1 ∧ ((p 0).slot 1).partner = some 0 ∧ (0 : SlotId) < 1 ∧
      ((p 0).slot 1).state = .calibrating ∧
      (p 0).failingLeg 0 = none ∧ (p 0).failingLeg 1 = none ∧ (p 131200).failingLeg 0 ≠ none := by
  decide +kernel

/-- Compares 1 and HP - 1 of a SWITCHING leg; a turn-on that the carrier still calls for and one that the
falling match at its instant cancels; a turn-on at a period event with an empty shadow. -/
theorem witness_CarrierMovesSwitches :
    let x (c : Nat) : Leg := { Leg.reset with func := .phase 0 .u 0, drive := .switching, active := some c }
    let s (c : Nat) := op.setLeg 0 (x c)
    let called (c : Nat) := idealState (((pulse c).leg 0).active.getD 0) 3125 (max (pulse c).now 3175 - 0)
    op.agenda = [] ∧ (s 1).mode = .operate ∧ ((s 1).leg 0).drive = .switching ∧
      ((s 1).leg 0).active = some 1 ∧ 1 < (s 1).image.hp (groupOf 0) ∧
      (s 1).now ≤ ((s 1).group (groupOf 0)).periodStart + ((s 1).image.hp (groupOf 0) - 1) ∧
      3124 < (s 3124).image.hp (groupOf 0) ∧
      (pulse 50).agenda = [] ∧ ((pulse 50).leg 0).pendingOn = some ⟨.high, 3175⟩ ∧
      called 51 = ((pulse 51).leg 0).target ∧ called 50 ≠ ((pulse 50).leg 0).target ∧
      0 + 2 * 3125 ≤ max 6300 3175 ∧ ((pulse 50).leg 0).shadow = none ∧
      (pulse 51).mode ≠ .reset ∧ max (pulse 51).now 3175 < 3176 ∧
      max (pulse 51).now 3175 < nextInstant 100 (pulse 51).lastFast (max (pulse 51).now 3175) ∧
      (pulse 51).now < 3175 ∧ 3125 ≤ 3125 ∧ 6249 < 2 * 3125 := by
  decide +kernel

/-- A change and none; dead times 0 and 1. -/
theorem witness_TargetChangeTakesDeadTime :
    Leg.reset.target ≠ .high ∧ Leg.reset.target = .none ∧ (0 : Nat) < 1 := by decide

/-! ### Witnesses: links -/

/-- Drive Link A with a transfer in progress that has kept these bytes. -/
def receiving (k : Link) (bits : Nat) (bytes : List Byte) : State :=
  op.setPort k { op.port k with selLow := true, rx := .shifting, bitCount := bits, bytes := bytes }

theorem witness_SelectAndClockShiftBits :
    (op.port .a).selLow = false ∧ op.mode ≠ .reset ∧ State.reset.mode = .reset ∧
      (op.port .a).rx ≠ .shifting ∧ ((receiving .a 0 []).port .a).rx = .shifting ∧
      (((receiving .a 0 []).port .a).bitCount + 1) % 8 ≠ 0 ∧
      (((receiving .b 2047 []).port .b).bitCount + 1) % 8 = 0 := by
  decide

/-- A drive telegram of no entries with request CLAIM of slot 5. -/
def claimTelegram (l : Link) : List Byte :=
  closeWithCrc l [0x31#8, 14#8, 1#8, 0#8, 1#8, 9#8, 5#8, 0#8, 0#8, 0#8, 0#8, 0#8]

/-- Accepted under its own link's seed, refused CRC under the other's, refused FRAMING a bit short; a queue
of one and of two; a reset that is owed, with a STORE in flight. -/
theorem witness_DriveTelegramActs :
    let s := receiving .a 112 (claimTelegram .a)
    let q (n : Nat) := s.setDrive .a { s.drive .a with queue := List.replicate n (req 13#8) }
    let r : State := { s.setPort .a { s.port .a with resetCount := 200 } with agenda := [.linkReset .a] }
    (s.port .a).selLow = true ∧ (s.port .a).rx = .shifting ∧ Work.linkReset .a ∉ s.agenda ∧
      acceptance .a 112 (claimTelegram .a) = none ∧
      acceptance .a 112 (claimTelegram .b) = some .crc ∧
      acceptance .a 111 (claimTelegram .a) = some .framing ∧
      (readTelegram (claimTelegram .a)).request = ⟨1#8, 9#8, 5#8, 0#8, 0#16, 0#16⟩ ∧
      ((q 1).drive .a).queue.length < 2 ∧ ¬((q 2).drive .a).queue.length < 2 ∧
      r.agenda = [.linkReset DriveLink.a.toLink] ∧ (r.port .a).resetCount = 200 ∧
      (r.port .a).selLow = true := by
  decide +kernel

/-- A safety telegram of alive count 4, signature 0x1234, every slot LIMIT at 300. -/
def limitTelegram : List Byte :=
  closeWithCrc .s ([0x51#8, 31#8, 4#8, 0x12#8, 0x34#8] ++
    (List.replicate 8 [1#8, 0x01#8, 0x2C#8]).flatten)

/-- A fresh telegram, a repeat, one of the wrong length, and a reset that is owed; slot 7 in RUN and slot 6
in OFF_HELD. -/
theorem witness_SafetyTelegramActs :
    let s := (receiving .s 248 limitTelegram).setSlot 7 runSlot
    let again : State := { s with safety := { s.safety with lastAlive := some 4#8 } }
    let r : State := { s.setPort .s { s.port .s with resetCount := 200 } with agenda := [.linkReset .s] }
    (s.port .s).selLow = true ∧ (s.port .s).rx = .shifting ∧ Work.linkReset .s ∉ s.agenda ∧
      acceptance .s 248 limitTelegram = none ∧ acceptance .s 240 limitTelegram = some .length ∧
      s.safety.lastAlive ≠ some (readAlive limitTelegram) ∧ readAlive limitTelegram = 4#8 ∧
      again.safety.lastAlive = some (readAlive limitTelegram) ∧
      readSignature limitTelegram = 0x1234#16 ∧ readPermission limitTelegram 7 = (.limit, 300) ∧
      readSignature limitTelegram ≠ s.signature ∧ (s.slot 7).state = .run ∧
      (s.slot 7).state.isActive = true ∧
      r.agenda = [.linkReset .s] ∧ (r.port .s).resetCount = 200 ∧ (r.port .s).selLow = true := by
  decide +kernel

/-- No fresh telegram seen, a slot alone under LIMIT, a pair of LIMIT and ALLOW, and a counter at SAFE_TMO
and one below it. -/
theorem witness_PermissionIsFormed :
    let s (n : Nat) : State :=
      { (pair.setSlot 0 { runSlot with partner := some 1, storedPerm := .limit, storedLimit := 300 }).setSlot 1
          { runSlot with partner := some 0, storedPerm := .allow } with
        safety := { op.safety with freshSeen := true, freshness := n } }
    op.safety.freshSeen = false ∧ (s 7).safety.freshSeen = true ∧ (s 7).mode = .operate ∧
      (s 7).safety.mismatch = false ∧ ((s 7).slot 0).partner = some 1 ∧ ((s 7).slot 2).partner = none ∧
      ((s 7).slot 0).storedPerm = .limit ∧ ((s 7).slot 1).storedPerm = .allow ∧
      ((s 7).formPermission 0).1 = .limit ∧ (s 8).image.safeTmo ≤ (s 8).safety.freshness ∧
      ¬(s 7).image.safeTmo ≤ (s 7).safety.freshness := by
  decide +kernel

theorem witness_LinkResetDropsTransfer :
    let s (k : Link) : State := { op.setPort k { op.port k with resetCount := 200 } with
      agenda := [.linkReset k] }
    (s .a).agenda = [.linkReset .a] ∧ ((s .a).port .a).resetCount = 200 ∧ DriveLink.a.toLink = .a ∧
      ((s .s).port .s).resetCount = 200 := by
  decide

/-! ### Witnesses: served requests -/

/-- The part in SETUP. -/
def su : State := { State.reset with mode := .setup }

/-- Slot 7 of leg 23, as given otherwise, in OPERATE. -/
def only7 (x : Slot) : State :=
  op.setSlot 7 { x with seats := [⟨23, .w, 1⟩], group := some 3 }

/-- Slot 7 CLAIMED by Drive Link A. -/
def claimed7 : Slot := { Slot.reset with state := .claimed, owner := some .a }

/-- Target 7 taken from a slot that is configured and free; target 8 is none. -/
theorem witness_ClaimAnswers :
    let s (n : Byte) := serving (only7 Slot.reset) (ask 1#8 n 0#16 0#16)
    (s 7#8).Serves .a (ask 1#8 7#8 0#16 0#16) [] [] ∧
      (s 8#8).Serves .a (ask 1#8 8#8 0#16 0#16) [] [] ∧ (s 7#8).mode = .operate ∧
      (7#8).toNat < 8 ∧ ¬(8#8).toNat < 8 ∧ ((s 7#8).slot 7).seats ≠ [] ∧
      ((s 7#8).slot 7).owner = none :=
  ⟨serving_serves _ _ (.inr rfl), serving_serves _ _ (.inr rfl), by decide⟩

theorem witness_ReleaseAnswers :
    let s (n : Byte) := serving (only7 claimed7) (ask 2#8 n 0#16 0#16)
    (s 7#8).Serves .a (ask 2#8 7#8 0#16 0#16) [] [] ∧
      (s 8#8).Serves .a (ask 2#8 8#8 0#16 0#16) [] [] ∧ (s 7#8).mode = .operate ∧
      ((s 7#8).slot 7).owner = some .a ∧ ((s 7#8).slot 7).state = .claimed :=
  ⟨serving_serves _ _ (.inr rfl), serving_serves _ _ (.inr rfl), by decide⟩

/-- Slot 7 alone and as the follower of slot 6, both let run, with a charged link and TOFF HIGH. -/
theorem witness_EnableAnswers :
    let x : Slot := { claimed7 with perm := .allow }
    let live (s : State) : State :=
      { s with safety := { op.safety with toffHigh := true }, dc := { op.dc with uv := false } }
    let s (n : Byte) := serving (live (only7 x)) (ask 3#8 n 0#16 0#16)
    let p := serving (live ((only7 { x with partner := some 6 }).setSlot 6 x)) (ask 3#8 7#8 0#16 0#16)
    (s 7#8).Serves .a (ask 3#8 7#8 0#16 0#16) [] [] ∧
      (s 8#8).Serves .a (ask 3#8 8#8 0#16 0#16) [] [] ∧ p.Serves .a (ask 3#8 7#8 0#16 0#16) [] [] ∧
      (s 7#8).mode = .operate ∧ ((s 7#8).slot 7).owner = some .a ∧
      ((s 7#8).slot 7).state = .claimed ∧ ((s 7#8).slot 7).perm = .allow ∧
      (s 7#8).safety.toffHigh = true ∧ (s 7#8).dc.uv = false ∧ ((s 7#8).slot 7).partner = none ∧
      (p.slot 7).partner = some 6 ∧ (p.slot 6).state = .claimed ∧ (p.slot 6).owner = some .a :=
  ⟨serving_serves _ _ (.inr rfl), serving_serves _ _ (.inr rfl), serving_serves _ _ (.inr rfl), by decide⟩

/-- Slot 7 in STOPPING, alone and with slot 6 in RUN as its partner. -/
theorem witness_DisableAnswers :
    let x : Slot := { claimed7 with state := .stopping }
    let s (n : Byte) := serving (only7 x) (ask 4#8 n 0#16 0#16)
    let p := serving ((only7 { x with partner := some 6 }).setSlot 6 runSlot) (ask 4#8 7#8 0#16 0#16)
    (s 7#8).Serves .a (ask 4#8 7#8 0#16 0#16) [] [] ∧
      (s 8#8).Serves .a (ask 4#8 8#8 0#16 0#16) [] [] ∧ p.Serves .a (ask 4#8 7#8 0#16 0#16) [] [] ∧
      (s 7#8).mode = .operate ∧ ((s 7#8).slot 7).owner = some .a ∧
      ((s 7#8).slot 7).state.isActive = true ∧ ((s 7#8).slot 7).partner = none ∧
      (p.slot 7).partner = some 6 ∧ (p.slot 6).state.isActive = true :=
  ⟨serving_serves _ _ (.inr rfl), serving_serves _ _ (.inr rfl), serving_serves _ _ (.inr rfl), by decide⟩

/-- Slot 7 in FAULT under SETPOINT_STALE, which is gone, and under DC_UNDERVOLTAGE while it lasts; a leg
cause with the fast value at IOC and one beyond it. -/
theorem witness_ClearAnswers :
    let s (c : Word) (n : Byte) :=
      serving (only7 { claimed7 with state := .fault, causes := c }) (ask 5#8 n 0#16 0#16)
    let f (v : Int) : State :=
      (only7 { claimed7 with firstFault := some ⟨.overcurrent, some 23, 0#16⟩ }).setLeg 23
        { Leg.reset with fastValue := v }
    (s 0x0020#16 7#8).Serves .a (ask 5#8 7#8 0#16 0#16) [] [] ∧
      (s 0x0080#16 7#8).Serves .a (ask 5#8 7#8 0#16 0#16) [] [] ∧
      (s 0x0020#16 8#8).Serves .a (ask 5#8 8#8 0#16 0#16) [] [] ∧ (s 0x0020#16 7#8).mode = .operate ∧
      ((s 0x0020#16 7#8).slot 7).owner = some .a ∧ ((s 0x0020#16 7#8).slot 7).state = .fault ∧
      0x0020#16 &&& ~~~((s 0x0020#16 7#8).goneCauses 7) = 0#16 ∧
      0x0080#16 &&& ~~~((s 0x0080#16 7#8).goneCauses 7) ≠ 0#16 ∧
      ((f ((f 0).image.ioc 7)).goneCauses 7).getLsbD 0 = true ∧
      ((f ((f 0).image.ioc 7 + 1)).goneCauses 7).getLsbD 0 = false :=
  ⟨serving_serves _ _ (.inr rfl), serving_serves _ _ (.inr rfl), serving_serves _ _ (.inr rfl),
    by decide +kernel⟩

/-- Reservations of 0, of 32767 and of 32768, and I_IN free for slot 7. -/
theorem witness_ReserveAnswers :
    let s (n : Byte) (a : Word) := serving (only7 claimed7) (ask 6#8 n a 0#16)
    (s 7#8 0#16).Serves .a (ask 6#8 7#8 0#16 0#16) [] [] ∧
      (s 7#8 32768#16).Serves .a (ask 6#8 7#8 32768#16 0#16) [] [] ∧
      (s 8#8 0#16).Serves .a (ask 6#8 8#8 0#16 0#16) [] [] ∧ (s 7#8 0#16).mode = .operate ∧
      ((s 7#8 0#16).slot 7).owner = some .a ∧ ¬32767 < (32767#16).toNat ∧ 32767 < (32768#16).toNat ∧
      (∀ j, ((s 7#8 0#16).slot j).resv = 0) ∧ ¬((s 7#8 0#16).image.iIn : Int) < 0 + (0#16).toNat ∧
      ((s 7#8 0#16).image.iIn : Int) < 0 + (32767#16).toNat :=
  ⟨serving_serves _ _ (.inr rfl), serving_serves _ _ (.inr rfl), serving_serves _ _ (.inr rfl),
    by decide +kernel⟩

/-- READ_FAULTS of slot 7 by its owner with each argument, and of no slot; READ_GLOBAL with flags that are
gone and one that is not; the counter at SAFE_TMO and below. -/
theorem witness_FaultReadsAnswer :
    let s (n : Byte) (a : Word) := serving (only7 { claimed7 with causes := 0x00A0#16 }) (ask 7#8 n a 0#16)
    let c (n : Nat) : State := { op with safety := { op.safety with freshness := n } }
    (s 7#8 0#16).Serves .a (ask 7#8 7#8 0#16 0#16) [] [] ∧
      (s 7#8 1#16).Serves .a (ask 7#8 7#8 1#16 0#16) [] [] ∧
      (s 7#8 2#16).Serves .a (ask 7#8 7#8 2#16 0#16) [] [] ∧
      (s 8#8 0#16).Serves .a (ask 7#8 8#8 0#16 0#16) [] [] ∧
      (serving su (req 8#8)).Serves .a (req 8#8) [] [] ∧
      ((s 7#8 0#16).slot 7).owner = some .a ∧
      0x00A0#16 &&& ~~~((s 7#8 0#16).goneCauses 7) = 0x0080#16 ∧
      (serving su (req 8#8)).globalSet &&& ~~~(serving su (req 8#8)).goneFlags = 0x0002#16 ∧
      (c 7).goneFlags.getLsbD 4 = true ∧ (c 8).goneFlags.getLsbD 4 = false :=
  ⟨serving_serves _ _ (.inr rfl), serving_serves _ _ (.inr rfl), serving_serves _ _ (.inr rfl),
    serving_serves _ _ (.inr rfl), serving_serves _ _ (.inl rfl), by decide +kernel⟩

/-- The last tuning value of slot 7, waiting, the last parameter of slot 7, the signature, and an identifier
of none. -/
theorem witness_ReadParamAnswers :
    let x : Slot := { claimed7 with staged := #v[none, none, none, none, none, none, some 77#16] }
    let s (a : Word) := serving (only7 x) (ask 9#8 0#8 a 0#16)
    (s 0x0906#16).Serves .a (ask 9#8 0#8 0x0906#16 0#16) [] [] ∧
      (s 0x0118#16).Serves .a (ask 9#8 0#8 0x0118#16 0#16) [] [] ∧
      ParamId.ofWord 0x0000#16 = some (.item (.global 0)) ∧
      ParamId.ofWord 0x001A#16 = some (.item (.global 26)) ∧ ParamId.ofWord 0x001B#16 = none ∧
      ParamId.ofWord 0x0100#16 = some (.item (.leg 0)) ∧
      ParamId.ofWord 0x0200#16 = some (.item (.slot 0 0)) ∧ ParamId.ofWord 0x0A00#16 = none ∧
      ParamId.ofWord 0x0210#16 = none ∧ ParamId.ofWord 0x0906#16 = some (.item (.slot 7 6)) ∧
      ParamId.ofWord 0x090F#16 = some (.item (.slot 7 15)) ∧
      ParamId.ofWord 0x0117#16 = some (.item (.leg 23)) ∧ ParamId.ofWord 0x0118#16 = none ∧
      ParamId.ofWord 0x001F#16 = some .signature ∧
      ((s 0x0906#16).slot 7).staged[(6 : Fin 7)] = some 77#16 :=
  ⟨serving_serves _ _ (.inr rfl), serving_serves _ _ (.inr rfl), by decide⟩

/-- Each way of a write: at once (slot 7 CLAIMED, with a waiting value, and leg 23 in SETUP, to every
function), staged (slot 7 in RUN), refused, a bad value, and no identifier; each kind of item. -/
theorem witness_WriteParamAnswers :
    let s (x : Slot) (a v : Word) := serving (only7 x) (ask 10#8 0#8 a v)
    let run : Slot := { claimed7 with state := .run }
    (s claimed7 0x0906#16 1#16).Serves .a (ask 10#8 0#8 0x0906#16 1#16) [] [] ∧
      (s run 0x0906#16 1#16).Serves .a (ask 10#8 0#8 0x0906#16 1#16) [] [] ∧
      (s run 0x0118#16 1#16).Serves .a (ask 10#8 0#8 0x0118#16 1#16) [] [] ∧
      (serving su (ask 10#8 0#8 0x0117#16 0x2000#16)).Serves .a (ask 10#8 0#8 0x0117#16 0x2000#16) [] [] ∧
      ((s claimed7 0x0906#16 1#16).writeAccess .a (.slot 7 6) matches .atOnce) = true ∧
      ((s run 0x0906#16 1#16).writeAccess .a (.slot 7 6) matches .staged) = true ∧
      ((s run 0x0906#16 1#16).writeAccess .a (.slot 7 7) matches .refused _) = true ∧
      ((serving su (req 10#8)).writeAccess .a (.leg 23) matches .atOnce) = true ∧
      (Item.leg 23).examine 0x2000#16 = some (0x2000#16, false) ∧
      (Item.leg 23).examine 0x4000#16 = none ∧ (Item.slot 7 6).examine 1#16 ≠ none ∧
      ParamId.ofWord 0x0118#16 = none ∧ (legFuncOf 0x0000#16).code = 0 ∧ (legFuncOf 0x2000#16).code = 2 ∧
      (legFuncOf 0x3000#16).code = 3 ∧ (legFuncOf 0x1721#16).code = 1 ∧ Leg.reset.func.code = 0 :=
  ⟨serving_serves _ _ (.inr rfl), serving_serves _ _ (.inr rfl), serving_serves _ _ (.inr rfl),
    serving_serves _ _ (.inl rfl), by decide +kernel⟩

/-- The last tuning item of slot 7 and the first item behind it, with slot 7 in each state of an owner. -/
theorem witness_WriteAccessTable :
    (Item.global 26).tuning = false ∧ (Item.slot 7 7).tuning = false ∧ (6 : Fin 16).val < 7 ∧
      (op.slot 7).state = .parked ∧ ((only7 claimed7).slot 7).owner = some .a ∧
      ((only7 claimed7).slot 7).state = .claimed := by decide

/-- ENTER_SETUP in SETUP, in OPERATE with every slot PARKED, and with slot 7 alone in use. -/
theorem witness_EnterSetupAnswers :
    let r := req 11#8
    (serving su r).Serves .a r [] [] ∧ (serving op r).Serves .a r [] [] ∧
      (serving (only7 claimed7) r).Serves .a r [] [] ∧ (serving su r).mode = .setup ∧
      (serving op r).mode = .operate ∧ (∀ i, ((serving op r).slot i).state = .parked) ∧
      ((serving (only7 claimed7) r).slot 7).state ≠ .parked ∧
      ∀ j, j < 7 → ((serving (only7 claimed7) r).slot j).state = .parked :=
  ⟨serving_serves _ _ (.inl rfl), serving_serves _ _ (.inr rfl), serving_serves _ _ (.inr rfl),
    by decide⟩

/-- SETUP with T_WARN risen to T_TRIP. -/
def hot : State := { su with image := su.image.set 7 0x0320#16 }

/-- LEAVE_SETUP in OPERATE, in SETUP with a STORE in flight, with an image that validates and with one
that fails check 6. -/
theorem witness_LeaveSetupAnswers :
    let r := req 12#8
    (serving op r).Serves .a r [] [] ∧ (serving op r).mode = .operate ∧
      (serving su r).Serves .a r [] [] ∧ (serving su r).mode = .setup ∧
      (serving su r).storeOp = none ∧ (serving su r).image.validate = none ∧
      (serving hot r).Serves .a r [] [] ∧ (serving hot r).mode = .setup ∧
      (serving hot r).storeOp = none ∧ (serving hot r).image.validate = some (6, 0) ∧
      (serving hot r).image.Fails 6 0 ∧
      (storing 0).mode = .setup ∧ (storing 0).storeOp.isSome = true :=
  ⟨serving_serves _ _ (.inr rfl), rfl, serving_serves _ _ (.inl rfl), rfl, rfl, default_validates,
    serving_serves _ _ (.inl rfl), rfl, rfl, by decide +kernel,
    .inr (.inr (.inr (.inr (.inr (.inl ⟨rfl, rfl, by decide +kernel⟩))))), rfl, rfl⟩

theorem witness_StoreAnswers :
    let r := req 13#8
    (serving op r).Serves .a r [] [] ∧ (serving op r).mode = .operate ∧
      (serving su r).Serves .a r [] [] ∧ (serving su r).mode = .setup ∧
      (serving su r).storeOp = none ∧ (serving (storing 7) r).Serves .a r [] [] ∧
      (serving (storing 7) r).storeOp.isSome = true :=
  ⟨serving_serves _ _ (.inr rfl), rfl, serving_serves _ _ (.inl rfl), rfl, rfl,
    serving_serves _ _ (.inl rfl), rfl⟩

/-- Leg 23 FORCED in SETUP with TOFF HIGH, driven HIGH, LOW, both and neither; target 24 is none. -/
theorem witness_ForceLegAnswers :
    let s : State := { su.setLeg 23 { Leg.reset with func := .forced } with
      safety := { op.safety with toffHigh := true } }
    let r (n : Byte) (h l : Word) := ask 14#8 n h l
    (∀ n h l, (serving s (r n h l)).Serves .a (r n h l) [] [] ∧ (r n h l).kind = 14#8) ∧
      (r 23#8 1#16 0#16).target.toNat < 24 ∧ ¬(r 24#8 1#16 0#16).target.toNat < 24 ∧
      s.mode = .setup ∧ (s.leg 23).func = .forced ∧ s.safety.toffHigh = true ∧
      (r 23#8 1#16 0#16).arg1 ≠ 0#16 ∧ (r 23#8 0#16 1#16).arg2 ≠ 0#16 ∧ (s.leg 22).func ≠ .forced :=
  ⟨fun _ _ _ => ⟨serving_serves _ _ (.inl rfl), rfl⟩, by decide⟩

/-- The least and the greatest unknown kind. -/
theorem witness_UnknownKindAnswers :
    (serving op (req 15#8)).Serves .a (req 15#8) [] [] ∧ 15 ≤ (req 15#8).kind.toNat ∧
      (serving su (req 255#8)).Serves .a (req 255#8) [] [] ∧ 15 ≤ (req 255#8).kind.toNat :=
  ⟨serving_serves _ _ (.inr rfl), by decide, serving_serves _ _ (.inl rfl), by decide⟩

/-- Slot 7 owned by Drive Link A under error code 5; a slot of no owner. -/
theorem witness_SnapshotsAreClosed :
    let s : State := { only7 claimed7 with safety := { op.safety with errCode := 5 } }
    ((List.finRange 8).filter fun i => decide ((s.slot i).owner = some .a)) = [7] ∧
      s.safety.errCode ≤ 5 := by decide

/-! ### Witnesses: the loop, the budget, the invariants -/

theorem witness_VoltageLimit : 32767 ≤ 32767 ∧ 32768 ≤ 32768 ∧ uMax 32767 32768 = 18918 := by decide

theorem witness_SetpointWithinLimit :
    feedAxis.k ≤ 32768 ∧ feedAxis.kr ≤ 32768 ∧
      0 ≤ currentLimit feedAxis.iMax feedAxis.lTemp feedAxis.lPerm ∧
      currentLimit feedAxis.iMax feedAxis.lTemp feedAxis.lPerm ≤ |(-8000 : Int)| ∧
      feedAxis.lPerm = none ∧ ({ feedAxis with lPerm := some 300 } : LoopIn).lPerm = some 300 ∧
      currentLimit feedAxis.iMax feedAxis.lTemp (some 300) = 300 := by decide

/-- A tandem pair whose angles are both present. -/
theorem witness_SetpointWithinLimit_tandem :
    let x : Slot := { runSlot with anglePresent := true }
    let s : State := (op.setSlot 0 { x with partner := some 1 }).setSlot 1 { x with partner := some 0 }
    (s.slot 1).partner = some 0 ∧ (s.slot 1).anglePresent = true ∧ (s.slot 0).anglePresent = true ∧
      s.leadOf 1 = 0 := by decide

/-- With VLIM = 0 the d axis stands at its limit, which is 0. -/
theorem witness_VoltageWithinCircle :
    let o := loopCompute { feedAxis with vlim := 0 }
    |o.uD| = o.uMax := by decide +kernel

/-- MP may reach HP/4. -/
theorem witness_CompareValuesInRange : 4 * feedAxis.mp ≤ feedAxis.hp ∧ 4 * 781 ≤ 3124 := by decide

theorem witness_TargetScaleByCase : (0 < 1 ∧ 1 < 2) ∧ targetScale 2 1 = 16384 := by decide

/-- A tier served in full before one that is not, and both within what is available. -/
theorem witness_SharesWithinAvailable :
    let xs : List (SlotId × Share) :=
      [(1, Share.first ⟨0, 1500, 1800, 32768, 0⟩), (7, Share.first ⟨3, 0, 1000, 32768, 0⟩)]
    (∀ p ∈ xs, p.2.given ≤ p.2.demand) ∧ (xs.map fun p => p.2.given).sum ≤ 2000 ∧
      (secondStage xs (2000 - (xs.map fun p => p.2.given).sum)).map (fun p => p.2.given) = [1800, 200] := by
  decide +kernel

theorem witness_AllocationMovesScales :
    (running []).mode = .operate ∧ ((running []).slot 0).state.isRunning = true ∧
      ((running []).shares.map Prod.fst) = [0] ∧
      ((running []).slot 1).state.isRunning = false := by decide +kernel

/-- After reset each invariant holds, and a device reset at the front of the queue answers next. -/
def resetting : State := { State.reset with pending := [.deviceReset] }

theorem resetting_slot (i : SlotId) : resetting.slot i = Slot.reset := by
  simp [resetting, State.reset, State.slot]

theorem resetting_leg (l : LegId) : resetting.leg l = Leg.reset := by
  simp [resetting, State.reset, State.leg]

theorem resetting_step : ∃ t, step resetting = .next t := ⟨_, rfl⟩

theorem leg_reset_off : Leg.reset.IsOff := ⟨rfl, rfl, rfl, rfl, rfl⟩

theorem witness_StepKeepsInterlock : resetting.Interlocked ∧ ∃ t, step resetting = .next t :=
  ⟨fun l => resetting_leg l ▸ leg_reset_off.interlocked, resetting_step⟩

theorem witness_StepKeepsTorqueOff : resetting.TorqueOffHolds ∧ ∃ t, step resetting = .next t :=
  ⟨⟨fun _ i => by rw [resetting_slot]; rfl, fun _ l _ => by rw [resetting_leg]; exact ⟨leg_reset_off, rfl⟩,
    fun l _ => by rw [resetting_leg]; exact leg_reset_off⟩, resetting_step⟩

theorem resetting_owned : resetting.Owned := fun i => by rw [resetting_slot]; decide

theorem resetting_parked : resetting.ParkedOutsideOperate := fun _ i => by
  rw [resetting_slot]; exact ⟨rfl, rfl⟩

theorem resetting_partner (i : SlotId) : (resetting.slot i).partner = none := by rw [resetting_slot]; rfl

theorem resetting_state (i : SlotId) : (resetting.slot i).state = .parked := by rw [resetting_slot]; rfl

theorem resetting_permissions : resetting.PermissionsHold where
  pairs i p h := by simp [resetting_partner] at h
  shared i p h := by simp [resetting_partner] at h
  running i h := by simp [resetting_state] at h
  stopping i h := by simp [resetting_state] at h

theorem resetting_pairs : resetting.PairsTogether where
  states i p h := by simp [resetting_partner] at h
  counters i p h := by simp [resetting_partner] at h

theorem resetting_budget : resetting.BudgetHolds where
  parked i _ := by rw [resetting_slot]; rfl
  total := by
    simp only [resetting_slot]
    exact Nat.zero_le _

theorem witness_StepKeepsSlotRules :
    resetting.Owned ∧ resetting.ParkedOutsideOperate ∧ resetting.StopCountsRest ∧
      resetting.PermissionsHold ∧ resetting.PairsTogether ∧ ∃ t, step resetting = .next t :=
  ⟨resetting_owned, resetting_parked, fun i _ => (by rw [resetting_slot]; rfl), resetting_permissions,
    resetting_pairs, resetting_step⟩

/-- A pair in one state, under one permission, with one stop counter. -/
def pairIn (st : SlotState) (q : Permission) (n : Nat) : State :=
  let x : Slot := { runSlot with state := st, perm := q, stopCount := n }
  (op.setSlot 0 { x with partner := some 1 }).setSlot 1 { x with partner := some 0, seats := [] }

/-- A pair in STOPPING under STOP meets the rules of slots, and so does one in RUN under ALLOW. -/
theorem witness_StepKeepsSlotRules_stopping :
    (pairIn .stopping .stop 3).PermissionsHold ∧ (pairIn .stopping .stop 3).PairsTogether ∧
      (pairIn .stopping .stop 3).StopCountsRest :=
  ⟨⟨by decide, by decide, by decide, by decide⟩, ⟨by decide, by decide⟩,
    by unfold State.StopCountsRest; decide⟩

theorem witness_StepKeepsSlotRules_running :
    (pairIn .run .allow 0).PermissionsHold ∧ (pairIn .run .allow 0).PairsTogether ∧
      (pairIn .run .allow 0).StopCountsRest :=
  ⟨⟨by decide, by decide, by decide, by decide⟩, ⟨by decide, by decide⟩,
    by unfold State.StopCountsRest; decide⟩

theorem witness_StepKeepsRanges :
    resetting.ScalesInRange ∧ resetting.LinksInRange ∧ resetting.Owned ∧
      resetting.ParkedOutsideOperate ∧ resetting.BudgetHolds ∧ ∃ t, step resetting = .next t :=
  ⟨⟨fun i => by rw [resetting_slot]; decide, by decide⟩,
    ⟨fun d => by cases d <;> decide, fun k => by cases k <;> decide⟩, resetting_owned, resetting_parked,
    resetting_budget, resetting_step⟩

end Sys2Proof.Tests
end

section
/-! SUPPORT. The limits of the current loop (R33 to R35, R41 to R43): the circle that a clamp by isqrt keeps
to, the voltage limit, the anti-windup choice, and the scaled setpoint. -/

namespace Sys2Proof.Machine

/-! ### The square root and the circle (R34, R42) -/

/-- An integer lies below the square of the number after its isqrt. -/
theorem isqrtI_lt_succ_sq (x : Int) : x < (isqrtI x + 1) * (isqrtI x + 1) := by
  have hs : ((x.toNat : Nat) : Int) < ((isqrt x.toNat + 1) * (isqrt x.toNat + 1) : Nat) :=
    Int.ofNat_lt.mpr (isqrt_spec x.toNat).2
  have hx : x ≤ (x.toNat : Int) := Int.self_le_toNat x
  push_cast at hs
  exact lt_of_le_of_lt hx hs

@[simp] theorem isqrtI_zero : isqrtI 0 = 0 := rfl

/-- What the d axis leaves under the square root is not negative. -/
theorem sq_sub_sq_nonneg {a m : Int} (h : |a| ≤ m) : 0 ≤ m * m - a * a := by
  have := mul_self_le_mul_self (abs_nonneg a) h
  rw [abs_mul_abs_self] at this
  omega

/-- A component no greater than what the other leaves keeps the pair within the circle (R34, R42). -/
theorem sq_add_sq_le_of_abs_le_isqrtI {a b m : Int} (ha : |a| ≤ m)
    (hb : |b| ≤ isqrtI (m * m - a * a)) : a * a + b * b ≤ m * m := by
  have hbb := mul_self_le_mul_self (abs_nonneg b) hb
  rw [abs_mul_abs_self] at hbb
  have := isqrtI_sq_le (sq_sub_sq_nonneg ha)
  omega

/-- Where the d axis takes the whole limit, a clamp to what it leaves gives 0. -/
theorem clampSym_isqrtI_eq_zero {a m x : Int} (h : |a| = m) :
    clampSym x (isqrtI (m * m - a * a)) = 0 := by
  have hz : m * m - a * a = 0 := by rw [← h, abs_mul_abs_self, sub_self]
  rw [hz, isqrtI_zero, clampSym_eq x le_rfl]
  omega

/-- A symmetric clamp of a value that reaches the limit has the limit's magnitude. -/
theorem clampSym_abs_eq {x m : Int} (h : 0 ≤ m) (hx : m ≤ |x|) : |clampSym x m| = m := by
  rw [clampSym_eq x h]
  rcases le_abs.mp hx with hp | hn
  · rw [show max (-m) (min x m) = m by omega, abs_of_nonneg h]
  · rw [show max (-m) (min x m) = -m by omega, abs_neg, abs_of_nonneg h]

/-! ### The voltage limit (R41) -/

/-- The voltage limit is a number that is not negative, with the inner floor taken first. -/
theorem uMax_eq_natCast (ve vlim : Nat) :
    uMax ve vlim = ((ve * 18919 / 32768 * vlim / 32768 : Nat) : Int) := by
  unfold uMax
  push_cast
  rfl

theorem uMax_nonneg (ve vlim : Nat) : 0 ≤ uMax ve vlim := by
  rw [uMax_eq_natCast]
  exact Int.natCast_nonneg _

/-- The greatest voltage limit. -/
theorem uMax_le {ve vlim : Nat} (hve : ve ≤ 32767) (hvlim : vlim ≤ 32768) :
    uMax ve vlim ≤ 18918 := by
  have hinner : ve * 18919 / 32768 ≤ 18918 := by omega
  have hprod : ve * 18919 / 32768 * vlim ≤ 18918 * 32768 := Nat.mul_le_mul hinner hvlim
  rw [uMax_eq_natCast]
  omega

/-- The limit a computation works with is that of its V_e. -/
theorem loopCompute_uMax (x : LoopIn) : (loopCompute x).uMax = uMax (max x.vdc x.vUv) x.vlim := rfl

/-- Settles O49: the limit as a natural number gives its bound; the examples are evaluated. -/
theorem voltageLimit : Obligations.VoltageLimit := by
  unfold Obligations.VoltageLimit
  refine ⟨uMax_eq_natCast, fun _ _ => uMax_le, by decide, fun ve => ?_, by decide, loopCompute_uMax,
    fun s g i => loopCompute_uMax (s.loopInputs g i)⟩
  simp [uMax_eq_natCast]

/-! ### Anti-windup (R43) -/

/-- A clamped axis whose error has the sign of its pre-limit voltage keeps its integrator. -/
theorem antiWindup_held {old cand e uPre lim um : Int}
    (h : lim < |uPre| ∧ ((0 < e ∧ 0 < uPre) ∨ (e < 0 ∧ uPre < 0))) :
    antiWindup old cand e uPre (decide (lim < |uPre|)) um = old :=
  if_pos ⟨decide_eq_true h.1, (same_sign_iff e uPre).mpr h.2⟩

/-- Every other axis takes its candidate within ±Umax·65536. -/
theorem antiWindup_free {old cand e uPre lim um : Int} (hum : 0 ≤ um)
    (h : ¬(lim < |uPre| ∧ ((0 < e ∧ 0 < uPre) ∨ (e < 0 ∧ uPre < 0)))) :
    antiWindup old cand e uPre (decide (lim < |uPre|)) um =
      max (-(um * 65536)) (min cand (um * 65536)) := by
  rw [← same_sign_iff] at h
  unfold antiWindup
  rw [if_neg (by simpa only [decide_eq_true_eq] using h), clampSym_eq _ (by omega)]

/-- Settles O50: both axes are clamps, q to the isqrt of what d leaves. -/
theorem voltageWithinCircle : Obligations.VoltageWithinCircle := by
  intro x o eD eQ candD candQ preD preQ sameSign bound
  have hum : 0 ≤ o.uMax := uMax_nonneg _ _
  have hd : |o.uD| ≤ o.uMax := clampSym_abs_le hum
  have hq : |o.uQ| ≤ isqrtI (o.uMax * o.uMax - o.uD * o.uD) := clampSym_abs_le (isqrtI_nonneg _)
  refine ⟨clampSym_eq _ hum, ⟨isqrtI (o.uMax * o.uMax - o.uD * o.uD), isqrtI_nonneg _,
      isqrtI_sq_le (sq_sub_sq_nonneg hd), isqrtI_lt_succ_sq _, clampSym_eq _ (isqrtI_nonneg _), ?_,
      antiWindup_held, antiWindup_free hum⟩,
    antiWindup_held, antiWindup_free hum, clampSym_isqrtI_eq_zero, hum, hd,
    sq_add_sq_le_of_abs_le_isqrtI hd hq⟩
  exact (Bool.decide_or _ _).symm

/-! ### The setpoint within the limit (R33 to R35) -/

/-- A scale of at most 32768 does not raise a magnitude. -/
theorem truncDiv_scaled_abs_le (iq : Int) {k : Nat} (hk : k ≤ 32768) :
    |truncDiv (iq * k) 32768| ≤ |iq| := by
  have h : iq.natAbs * k / 32768 ≤ iq.natAbs :=
    Nat.div_le_of_le_mul (by rw [Nat.mul_comm]; exact Nat.mul_le_mul_right _ hk)
  rw [truncDiv, Int.abs_eq_natAbs, Int.abs_eq_natAbs, Int.natAbs_tdiv, Int.natAbs_mul]
  exact Int.ofNat_le.mpr h

/-- Neither direction of power flow raises the q setpoint (R35). -/
theorem scaleQ_abs_le (iq omega : Int) {k kr : Nat} (hk : k ≤ 32768) (hkr : kr ≤ 32768) :
    |scaleQ iq omega k kr| ≤ |iq| := by
  unfold scaleQ
  split
  · exact truncDiv_scaled_abs_le iq hk
  · split
    · exact truncDiv_scaled_abs_le iq hkr
    · exact le_rfl

@[simp] theorem scaleQ_zero (omega : Int) (k kr : Nat) : scaleQ 0 omega k kr = 0 := by
  simp [scaleQ]

/-- Under LIMIT the limit L takes L_perm in too (R33). -/
theorem currentLimit_some (iMax lTemp p : Int) :
    currentLimit iMax lTemp (some p) = min iMax (min lTemp p) :=
  min_assoc _ _ _

/-- A tandem pair whose angles are there is handed its lead's q setpoint (R20, R132). -/
theorem State.loopInputs_iqW_of_partner (s : State) (g : GroupId) {i p : SlotId}
    (hp : (s.slot i).partner = some p) (hi : (s.slot i).anglePresent = true)
    (hpa : (s.slot p).anglePresent = true) :
    (s.loopInputs g i).iqW = (s.slot (s.leadOf i)).iqW := by
  simp [State.loopInputs, State.handedSetpoint, hp, hi, hpa]

/-- Settles O51: both axes are clamps, q to the isqrt of what d leaves, and scaling lowers q. -/
theorem setpointWithinLimit : Obligations.SetpointWithinLimit := by
  intro x hk hkr hl o l
  have hd : |o.id| ≤ l := clampSym_abs_le hl
  have hlq := isqrtI_nonneg (l * l - o.id * o.id)
  have hscale : |o.iq| ≤ |limitQ l o.id x.iqW| := scaleQ_abs_le _ _ hk hkr
  have hq : |o.iq| ≤ isqrtI (l * l - o.id * o.id) := hscale.trans (clampSym_abs_le hlq)
  refine ⟨fun h => ?_, fun p h => ?_, rfl, clampSym_eq _ hl,
    ⟨isqrtI (l * l - o.id * o.id), limitQ l o.id x.iqW, hlq, isqrtI_sq_le (sq_sub_sq_nonneg hd),
      isqrtI_lt_succ_sq _, clampSym_eq _ hlq, rfl, rfl⟩,
    fun hreach => ?_, hd, sq_add_sq_le_of_abs_le_isqrtI hd hq,
    hscale.trans (clampSym_abs_le_abs hlq),
    fun s g _ _ hp hi hpa => s.loopInputs_iqW_of_partner g hp hi hpa⟩
  · simp only [l, h, currentLimit]
  · simp only [l, h, currentLimit_some]
  · have hid : |o.id| = l := clampSym_abs_eq hl hreach
    have hzero : limitQ l o.id x.iqW = 0 := clampSym_isqrtI_eq_zero hid
    refine ⟨hid, ?_⟩
    calc o.iq = scaleQ (limitQ l o.id x.iqW) x.omega x.k x.kr := rfl
      _ = 0 := by rw [hzero, scaleQ_zero]

end Sys2Proof.Machine
end

section
/-! SUPPORT. The sine of R36 over the whole turn, and the way from the voltage command back to the phases
(R44 to R50). -/

namespace Sys2Proof.Machine

/-! ### The sine (R36) -/

/-- The first quarter of the table is written out. -/
theorem sineTable_first {k : Nat} (hk : k ≤ 256) : sineTable k = (sineQuarter.getD k 0 : Nat) :=
  if_pos hk

/-- The second quarter mirrors the first, its first entry too. -/
theorem sineTable_second {k : Nat} (hlo : 256 ≤ k) (hhi : k ≤ 512) :
    sineTable k = (sineQuarter.getD (512 - k) 0 : Nat) := by
  rcases hlo.eq_or_lt with rfl | hlo
  · rfl
  · rw [sineTable, if_neg (by omega), if_pos hhi]

/-- The third quarter is the negative of the first, its first entry too. -/
theorem sineTable_third {k : Nat} (hlo : 512 ≤ k) (hhi : k ≤ 768) :
    sineTable k = -(sineQuarter.getD (k - 512) 0 : Nat) := by
  rcases hlo.eq_or_lt with rfl | hlo
  · rfl
  · rw [sineTable, if_neg (by omega), if_neg (by omega), if_pos hhi]

/-- The fourth quarter is the negative of the second, its first entry too. -/
theorem sineTable_fourth {k : Nat} (hlo : 768 ≤ k) :
    sineTable k = -(sineQuarter.getD (1024 - k) 0 : Nat) := by
  rcases hlo.eq_or_lt with rfl | hlo
  · rfl
  · rw [sineTable, if_neg (by omega), if_neg (by omega), if_neg (by omega)]

/-- Half a turn on, the table holds the negative. -/
theorem sineTable_half_turn {k : Nat} (hk : k < 1024) :
    sineTable ((k + 512) % 1024) = -sineTable k := by
  rcases Nat.lt_or_ge k 512 with hhalf | hhalf
  · rw [Nat.mod_eq_of_lt (by omega)]
    rcases Nat.le_total k 256 with hq | hq
    · rw [sineTable_third (by omega) (by omega), sineTable_first hq, Nat.add_sub_cancel]
    · rw [sineTable_fourth (by omega), sineTable_second hq hhalf.le,
        show 1024 - (k + 512) = 512 - k by omega]
  · rw [show (k + 512) % 1024 = k - 512 by omega]
    rcases Nat.le_total k 768 with hq | hq
    · rw [sineTable_first (by omega), sineTable_third hhalf hq, neg_neg]
    · rw [sineTable_second (by omega) (by omega), sineTable_fourth hq, neg_neg,
        show 512 - (k - 512) = 1024 - k by omega]

/-- The cosine is the sine a quarter turn on. -/
theorem cosAu_eq_sinAu (theta : BitVec 16) : cosAu theta = sinAu (theta + 16384#16) := by
  simp [cosAu, sinAu, BitVec.toNat_add]

theorem sinAu_half_turn (theta : BitVec 16) : sinAu (theta + 32768#16) = -sinAu theta := by
  have ht := theta.isLt
  have hk : (theta + 32768#16).toNat / 64 = (theta.toNat / 64 + 512) % 1024 := by
    rw [BitVec.toNat_add, BitVec.toNat_ofNat]
    omega
  rw [sinAu, hk, sineTable_half_turn (by omega), sinAu]

/-- The six low bits of an angle are not used. -/
theorem sinAu_low_bits (theta : BitVec 16) :
    sinAu theta = sinAu (BitVec.ofNat 16 (theta.toNat / 64 * 64)) := by
  have ht := theta.isLt
  rw [sinAu, sinAu, BitVec.toNat_ofNat]
  congr 1
  omega

/-! ### Back to the phases (R44 to R50) -/

/-- A phase's compare value from its voltage and its current, with V_e an integer (R47 to R49). -/
theorem LoopIn.compareOf_eq (x : LoopIn) (u i : Int) :
    (x.compareOf u i : Int) =
      let ve : Int := max x.vdc x.vUv
      let base := (2 * u + ve) * x.hp / (2 * ve)
      let comp :=
        if (x.dtcI : Int) ≤ i then base + x.dtcAmp
        else if i ≤ -(x.dtcI : Int) then base - x.dtcAmp else base
      let c := max 0 (min comp x.hp)
      if c < x.mp then 0 else if (x.hp : Int) - x.mp < c then (x.hp : Int) else c := by
  simp only [LoopIn.compareOf, dropPulse_eq, compensate, baseCompare, Nat.cast_max]

/-- The DC-current sample from the injected voltages, with V_e an integer (R50). -/
theorem LoopIn.dcSample_eq (x : LoopIn) (va vb vc : Int) :
    x.dcSample (va, vb, vc) =
      max (-32768) (min ((va * x.ia + vb * x.ib + vc * x.ic).tdiv (max x.vdc x.vUv)) 32767) := by
  rw [LoopIn.dcSample, sat16_eq, truncDiv, Nat.cast_max]

/-- After pulse dropping a compare value is 0, HP, or a pulse apart from both (R49). -/
theorem dropPulse_range (c : Int) (hp mp : Nat) :
    dropPulse c hp mp = 0 ∨ dropPulse c hp mp = hp ∨
      (mp ≤ dropPulse c hp mp ∧ dropPulse c hp mp ≤ hp - mp) := by
  have h := dropPulse_eq c hp mp
  split at h
  · exact .inl (by omega)
  · split at h
    · exact .inr (.inl (by omega))
    · exact .inr (.inr (by omega))

/-- Each phase's compare value is that of its voltage and its current (R47 to R49). -/
theorem loopCompute_compare (x : LoopIn) (ph : Phase) :
    ∃ u i, (loopCompute x).compare ph = x.compareOf u i := by
  obtain ⟨hu, hv, hw, -⟩ := loopCompute_phases x
  cases ph with
  | u => exact ⟨_, _, hu⟩
  | v => exact ⟨_, _, hv⟩
  | w => exact ⟨_, _, hw⟩

/-- Settles O52, stage by stage: each transform is its word of the model, saturation a minimum and
maximum, and a compare value what pulse dropping leaves. -/
theorem compareValuesInRange : Obligations.CompareValuesInRange := by
  intro x o ve sin cos iAl iBe
  have hAl : clarkeAlpha x.ia x.ib x.ic = iAl := sat16_eq _
  have hBe : clarkeBeta x.ib x.ic = iBe := sat16_eq _
  refine ⟨?_, ?_, fun theta => ⟨cosAu_eq_sinAu theta, sinAu_half_turn theta, sinAu_low_bits theta⟩,
    by decide, ?_⟩
  · rw [← hAl, ← hBe]
    exact sat16_eq _
  · rw [← hAl, ← hBe]
    exact sat16_eq _
  · intro uAl uBe ub uc u0 value
    obtain ⟨hU, hV, hW, hJ⟩ := loopCompute_phases x
    replace hU : o.compare .u = x.compareOf (uAl + u0) x.ia := hU
    replace hV : o.compare .v = x.compareOf (ub + u0) x.ib := hV
    replace hW : o.compare .w = x.compareOf (uc + u0) x.ic := hW
    replace hJ : o.j = x.dcSample (uAl + u0, ub + u0, uc + u0) := hJ
    refine ⟨?_, ?_, ?_, ?_, fun ph _ => ?_⟩
    · rw [hU]
      exact x.compareOf_eq _ _
    · rw [hV]
      exact x.compareOf_eq _ _
    · rw [hW]
      exact x.compareOf_eq _ _
    · rw [hJ]
      exact x.dcSample_eq _ _ _
    · obtain ⟨u, i, h⟩ := loopCompute_compare x ph
      replace h : o.compare ph = x.compareOf u i := h
      rw [h]
      exact dropPulse_range _ _ _

end Sys2Proof.Machine
end

section
/-! SUPPORT. The work of a period event on a group (R26, R51, R130): what computing one slot leaves of the
state, computing several slots in a row, and the inputs of R30. -/

namespace Sys2Proof.Machine

variable (s : State) (g : GroupId) (i j : SlotId) (l : LegId)

/-! ### One slot computed (R49, R51) -/

/-- Computing a slot stores results in its own record alone. -/
theorem State.computeSlot_slot :
    (s.computeSlot g i).slot j =
      if i = j then (s.slot i).afterLoop (loopCompute (s.loopInputs g i)) else s.slot j := by
  simp [State.computeSlot]

/-- Computing a slot loads the shadows of its own legs (R49). -/
theorem State.computeSlot_leg_of_phaseOf {i : SlotId} {l : LegId} {ph : Phase}
    (h : (s.slot i).phaseOf l = some ph) :
    (s.computeSlot g i).leg l =
      { s.leg l with shadow := some ((loopCompute (s.loopInputs g i)).compare ph) } := by
  simp only [State.computeSlot, State.setSlot_leg, State.leg_mapLegs, h]

/-- Computing a slot leaves the legs outside its leg set. -/
theorem State.computeSlot_leg_of_none {i : SlotId} {l : LegId} (h : (s.slot i).phaseOf l = none) :
    (s.computeSlot g i).leg l = s.leg l := by
  simp only [State.computeSlot, State.setSlot_leg, State.leg_mapLegs, h]

/-- Computing a slot leaves every leg's period sample. -/
@[simp] theorem State.computeSlot_sample : ((s.computeSlot g i).leg l).sample = (s.leg l).sample := by
  cases h : (s.slot i).phaseOf l with
  | none => rw [s.computeSlot_leg_of_none g h]
  | some ph => rw [s.computeSlot_leg_of_phaseOf g h]

/-- Computing a slot leaves what other slots read of a record: its derived fields, state, angle, setpoint
and budget scale. -/
theorem State.computeSlot_keeps {α : Type} (f : Slot → α) (hf : ∀ x o, f (Slot.afterLoop x o) = f x) :
    f ((s.computeSlot g i).slot j) = f (s.slot j) := by
  rw [s.computeSlot_slot]
  split
  · next h => rw [hf, h]
  · rfl

@[simp] theorem State.computeSlot_seats : ((s.computeSlot g i).slot j).seats = (s.slot j).seats :=
  s.computeSlot_keeps g i j Slot.seats fun _ _ => rfl

@[simp] theorem State.computeSlot_group : ((s.computeSlot g i).slot j).group = (s.slot j).group :=
  s.computeSlot_keeps g i j Slot.group fun _ _ => rfl

@[simp] theorem State.computeSlot_partner :
    ((s.computeSlot g i).slot j).partner = (s.slot j).partner :=
  s.computeSlot_keeps g i j Slot.partner fun _ _ => rfl

@[simp] theorem State.computeSlot_anglePresent :
    ((s.computeSlot g i).slot j).anglePresent = (s.slot j).anglePresent :=
  s.computeSlot_keeps g i j Slot.anglePresent fun _ _ => rfl

@[simp] theorem State.computeSlot_idW : ((s.computeSlot g i).slot j).idW = (s.slot j).idW :=
  s.computeSlot_keeps g i j Slot.idW fun _ _ => rfl

@[simp] theorem State.computeSlot_iqW : ((s.computeSlot g i).slot j).iqW = (s.slot j).iqW :=
  s.computeSlot_keeps g i j Slot.iqW fun _ _ => rfl

@[simp] theorem State.computeSlot_kScale :
    ((s.computeSlot g i).slot j).kScale = (s.slot j).kScale :=
  s.computeSlot_keeps g i j Slot.kScale fun _ _ => rfl

@[simp] theorem State.computeSlot_phaseOf :
    ((s.computeSlot g i).slot j).phaseOf l = (s.slot j).phaseOf l := by
  simp [Slot.phaseOf]

@[simp] theorem State.computeSlot_image : (s.computeSlot g i).image = s.image := by
  simp [State.computeSlot]

@[simp] theorem State.computeSlot_dc : (s.computeSlot g i).dc = s.dc := by
  simp [State.computeSlot]

@[simp] theorem State.computeSlot_groups (k : GroupId) : (s.computeSlot g i).group k = s.group k := by
  simp [State.computeSlot]

/-- Computing a slot changes slot and leg records and nothing else. -/
theorem State.computeSlot_frame :
    { s.computeSlot g i with slots := s.slots, legs := s.legs } = s := by
  simp only [State.computeSlot, State.setSlot, State.mapLegs]

/-! #### Its inputs for another slot -/

@[simp] theorem State.computeSlot_phaseCurrent (ph : Phase) :
    (s.computeSlot g i).phaseCurrent j ph = s.phaseCurrent j ph := by
  simp [State.phaseCurrent]

@[simp] theorem State.computeSlot_leadOf : (s.computeSlot g i).leadOf j = s.leadOf j := by
  simp [State.leadOf]

@[simp] theorem State.computeSlot_handedSetpoint :
    (s.computeSlot g i).handedSetpoint j = s.handedSetpoint j := by
  simp [State.handedSetpoint]

@[simp] theorem State.computeSlot_appliedScale :
    (s.computeSlot g i).appliedScale j = s.appliedScale j := by
  simp [State.appliedScale]

@[simp] theorem State.computeSlot_lTemp : (s.computeSlot g i).lTemp j = s.lTemp j := by
  simp [State.lTemp]

/-- A slot's inputs do not depend on which other slots are computed before it. -/
theorem State.computeSlot_loopInputs {i j : SlotId} (h : i ≠ j) :
    (s.computeSlot g i).loopInputs g j = s.loopInputs g j := by
  simp [State.loopInputs, State.computeSlot_slot, h]

/-! ### Several slots computed in a row (R26) -/

/-- The slots of a list computed one after another. -/
def State.computeSlots (s : State) (g : GroupId) (xs : List SlotId) : State :=
  xs.foldl (fun s i => s.computeSlot g i) s

/-- The slots of a group in RUN or STOPPING (R26). -/
def State.runningSlots (s : State) (g : GroupId) : List SlotId :=
  (s.slotsOf g).filter fun i => (s.slot i).state.isRunning

/-- A group's computation takes its running slots, then the angles of all its slots (R26, R130). -/
theorem State.computeGroup_eq :
    s.computeGroup g =
      (s.computeSlots g (s.runningSlots g)).mapSlots fun _ x =>
        if x.group = some g then x.advanceAngle else x := rfl

theorem State.mem_runningSlots :
    i ∈ s.runningSlots g ↔ (s.slot i).group = some g ∧ (s.slot i).state.isRunning = true := by
  simp [State.runningSlots, State.slotsOf, and_comm]

theorem State.runningSlots_nodup : (s.runningSlots g).Nodup :=
  ((List.nodup_finRange 8).filter _).filter _

/-- A slot that is not computed keeps its record. -/
theorem State.computeSlots_slot_of_notMem {xs : List SlotId} (h : i ∉ xs) :
    (s.computeSlots g xs).slot i = s.slot i := by
  induction xs generalizing s with
  | nil => rfl
  | cons x xs ih =>
    obtain ⟨hx, hxs⟩ := not_or.mp (mt List.mem_cons.mpr h)
    calc ((s.computeSlot g x).computeSlots g xs).slot i
        = (s.computeSlot g x).slot i := ih _ hxs
      _ = s.slot i := by rw [s.computeSlot_slot, if_neg (Ne.symm hx)]

/-- A computed slot stores the results of its inputs before the first computation. -/
theorem State.computeSlots_slot_of_mem {xs : List SlotId} (hn : xs.Nodup) (h : i ∈ xs) :
    (s.computeSlots g xs).slot i = (s.slot i).afterLoop (loopCompute (s.loopInputs g i)) := by
  induction xs generalizing s with
  | nil => cases h
  | cons x xs ih =>
    obtain ⟨hx, hxs⟩ := List.nodup_cons.mp hn
    change ((s.computeSlot g x).computeSlots g xs).slot i = _
    rcases List.mem_cons.mp h with rfl | hi
    · rw [State.computeSlots_slot_of_notMem _ g i hx, s.computeSlot_slot, if_pos rfl]
    · have hne : x ≠ i := fun he => hx (he ▸ hi)
      rw [ih _ hxs hi, s.computeSlot_loopInputs g hne, s.computeSlot_slot, if_neg hne]

/-- A leg of no computed slot keeps its record. -/
theorem State.computeSlots_leg_of_none {xs : List SlotId} {l : LegId}
    (h : ∀ j ∈ xs, (s.slot j).phaseOf l = none) : (s.computeSlots g xs).leg l = s.leg l := by
  induction xs generalizing s with
  | nil => rfl
  | cons x xs ih =>
    obtain ⟨hx, hxs⟩ := List.forall_mem_cons.mp h
    calc ((s.computeSlot g x).computeSlots g xs).leg l
        = (s.computeSlot g x).leg l := ih _ fun j hj => by simpa using hxs j hj
      _ = s.leg l := s.computeSlot_leg_of_none g hx

/-- A leg of one computed slot alone has that slot's compare value in its shadow. -/
theorem State.computeSlots_leg_of_phaseOf {xs : List SlotId} {i : SlotId} {l : LegId} {ph : Phase}
    (hn : xs.Nodup) (hi : i ∈ xs) (hph : (s.slot i).phaseOf l = some ph)
    (hother : ∀ j, i ≠ j → (s.slot j).phaseOf l = none) :
    (s.computeSlots g xs).leg l =
      { s.leg l with shadow := some ((loopCompute (s.loopInputs g i)).compare ph) } := by
  induction xs generalizing s with
  | nil => cases hi
  | cons x xs ih =>
    obtain ⟨hx, hxs⟩ := List.nodup_cons.mp hn
    change ((s.computeSlot g x).computeSlots g xs).leg l = _
    rcases List.mem_cons.mp hi with rfl | hmem
    · rw [State.computeSlots_leg_of_none, s.computeSlot_leg_of_phaseOf g hph]
      intro j hj
      have hne : i ≠ j := fun he => hx (he ▸ hj)
      simpa using hother j hne
    · have hne : x ≠ i := fun he => hx (he ▸ hmem)
      rw [ih _ hxs hmem (by simpa using hph) (fun j hj => by simpa using hother j hj),
        s.computeSlot_loopInputs g hne, s.computeSlot_leg_of_none g (hother x hne.symm)]

/-- Computing slots changes slot and leg records and nothing else. -/
theorem State.computeSlots_frame (xs : List SlotId) :
    { s.computeSlots g xs with slots := s.slots, legs := s.legs } = s := by
  induction xs generalizing s with
  | nil => rfl
  | cons x xs ih =>
    have h := congrArg (fun t : State => { t with slots := s.slots, legs := s.legs })
      (ih (s.computeSlot g x))
    exact h.trans (s.computeSlot_frame g x)

/-! ### A group computed (R26, R130) -/

/-- A running slot of the group stores its results and advances its angle. -/
theorem State.computeGroup_slot_running {g : GroupId} {i : SlotId} (hg : (s.slot i).group = some g)
    (hr : (s.slot i).state.isRunning = true) :
    (s.computeGroup g).slot i =
      ((s.slot i).afterLoop (loopCompute (s.loopInputs g i))).advanceAngle := by
  have hmem : i ∈ s.runningSlots g := (s.mem_runningSlots g i).mpr ⟨hg, hr⟩
  rw [s.computeGroup_eq, State.slot_mapSlots,
    s.computeSlots_slot_of_mem g i (s.runningSlots_nodup g) hmem]
  exact if_pos hg

/-- A slot that is not running stores nothing; in the group it advances its angle. -/
theorem State.computeGroup_slot_idle {g : GroupId} {i : SlotId}
    (h : ¬((s.slot i).group = some g ∧ (s.slot i).state.isRunning = true)) :
    (s.computeGroup g).slot i =
      if (s.slot i).group = some g then (s.slot i).advanceAngle else s.slot i := by
  rw [s.computeGroup_eq, State.slot_mapSlots,
    s.computeSlots_slot_of_notMem g i (mt (s.mem_runningSlots g i).mp h)]

theorem State.computeGroup_leg :
    (s.computeGroup g).leg l = (s.computeSlots g (s.runningSlots g)).leg l := by
  rw [s.computeGroup_eq, State.mapSlots_leg]

theorem State.computeGroup_frame :
    { s.computeGroup g with slots := s.slots, legs := s.legs } = s :=
  s.computeSlots_frame g _

/-- A leg outside a leg set has no phase there. -/
theorem Slot.phaseOf_eq_none_iff (x : Slot) (l : LegId) :
    x.phaseOf l = none ↔ (x.seats.any fun t => t.leg = l) = false := by
  simp [Slot.phaseOf]

theorem Slot.any_seat_of_phaseOf {x : Slot} {l : LegId} {ph : Phase} (h : x.phaseOf l = some ph) :
    (x.seats.any fun t => t.leg = l) = true := by
  by_contra hany
  simp [(x.phaseOf_eq_none_iff l).mpr (Bool.eq_false_iff.mpr hany)] at h

/-! ### The inputs (R30, R132) -/

/-- The combined current of a phase: the saturated sum of its legs' samples (R31). -/
theorem State.phaseCurrent_eq (ph : Phase) :
    s.phaseCurrent i ph = max (-32768) (min
      ((((s.slot i).seats.filter fun q => decide (q.phase = ph)).map fun q =>
        (s.leg q.leg).sample).sum) 32767) :=
  sat16_eq _

/-- A slot alone is handed its own setpoint, 0 until its angle is there (R132). -/
theorem State.handedSetpoint_alone {i : SlotId} (h : (s.slot i).partner = none) :
    s.handedSetpoint i =
      if (s.slot i).anglePresent then ((s.slot i).idW, (s.slot i).iqW) else (0, 0) := by
  simp only [State.handedSetpoint, h]

/-- A pair member is handed the lead's setpoint, 0 until both angles are there (R20, R132). -/
theorem State.handedSetpoint_pair {i p : SlotId} (h : (s.slot i).partner = some p) :
    s.handedSetpoint i =
      if (s.slot i).anglePresent && (s.slot p).anglePresent then
        ((s.slot (if p < i then p else i)).idW, (s.slot (if p < i then p else i)).iqW)
      else (0, 0) := by
  simp only [State.handedSetpoint, State.leadOf, h]

theorem State.appliedScale_alone {i : SlotId} (h : (s.slot i).partner = none) :
    s.appliedScale i = (s.slot i).kScale := by
  simp only [State.appliedScale, h]

theorem State.appliedScale_pair {i p : SlotId} (h : (s.slot i).partner = some p) :
    s.appliedScale i = min (s.slot i).kScale (s.slot p).kScale := by
  simp only [State.appliedScale, h]

/-- The tuning parameters a computation takes are items 0 to 6 of the slot (R32). -/
theorem State.loopInputs_tuning :
    let x := s.loopInputs g i
    [x.kpD, x.kpQ, x.kiD, x.kiQ, x.vlim, x.dtcAmp, x.dtcI] =
      (List.finRange 7).map (fun j => (s.image[56 + 16 * i.val + j.val]'(by omega)).toNat) := rfl

end Sys2Proof.Machine
end

section
/-! The group's computation as stated. -/

namespace Sys2Proof.Machine

/-- Settles O24: the fold over the running slots, whose inputs do not depend on one another, and the
advance of the angles after it. -/
theorem groupComputation : Obligations.GroupComputation := by
  intro s g hdisjoint t
  have hother : ∀ i l ph, (s.slot i).phaseOf l = some ph →
      ∀ j, i ≠ j → (s.slot j).phaseOf l = none :=
    fun i l ph h j hne =>
      (Slot.phaseOf_eq_none_iff _ l).mpr (hdisjoint i j l hne (Slot.any_seat_of_phaseOf h))
  refine ⟨fun i hg hr => ⟨s.computeGroup_slot_running hg hr, fun l ph hph => ?_⟩,
    fun i hg hr => ?_, fun i hg => ?_, fun l hnone => ?_, s.computeGroup_frame g, fun i => ?_⟩
  · have hmem : i ∈ s.runningSlots g := (s.mem_runningSlots g i).mpr ⟨hg, hr⟩
    exact (s.computeGroup_leg g l).trans
      (s.computeSlots_leg_of_phaseOf g (s.runningSlots_nodup g) hmem hph (hother i l ph hph))
  · exact (s.computeGroup_slot_idle (by simp [hr])).trans (if_pos hg)
  · exact (s.computeGroup_slot_idle (by simp [hg])).trans (if_neg hg)
  · refine (s.computeGroup_leg g l).trans (s.computeSlots_leg_of_none g fun i hi => ?_)
    obtain ⟨hg, hr⟩ := (s.mem_runningSlots g i).mp hi
    exact hnone i hg hr
  · exact ⟨s.phaseCurrent_eq i .u, s.phaseCurrent_eq i .v, s.phaseCurrent_eq i .w, rfl, rfl,
      fun h => ⟨s.handedSetpoint_alone h, s.appliedScale_alone h⟩,
      fun p h => ⟨s.handedSetpoint_pair h, s.appliedScale_pair h⟩,
      rfl, rfl, rfl, rfl, rfl, rfl, s.loopInputs_tuning g i, rfl, rfl, rfl, rfl⟩

end Sys2Proof.Machine
end

section
/-! SUPPORT. Commands that find no cause (logs 2 and 13), and the notices whose source is looked at when they
are taken (R77, R78, R80, R85, R86). -/

namespace Sys2Proof.Machine

variable {s : State}

/-! ### Rows of the table -/

/-- What a command that takes the work of its row answers when that work is not owed (log 2). -/
theorem State.next_takeRow_not_owed {w : Work} (h : w ∉ s.agenda) (due : State → Bool)
    (f : State → State) :
    (.next (s.takeRow w due f) : Host.Outcome State Fault Refusal) = .next s :=
  congrArg _ (State.takeRow_not_owed h)

/-- What it answers when the work stands first and its source is present. -/
theorem State.next_takeRow_front {w : Work} {ws : List Work} {due : State → Bool} {f : State → State}
    (ha : s.agenda = w :: ws) (hd : due s = true) :
    (.next (s.takeRow w due f) : Host.Outcome State Fault Refusal) = (f s).thenWorks ws :=
  congrArg _ (State.takeRow_front ha hd)

/-- A command whose work stands first, but no longer stands out, has no effect (log 2). -/
theorem State.takeRow_front_not_due {w : Work} {ws : List Work} {due : State → Bool}
    {f : State → State} (ha : s.agenda = w :: ws) (hd : due s = false) : s.takeRow w due f = s := by
  simp [State.takeRow, ha, hd]

theorem State.next_takeRow_front_not_due {w : Work} {ws : List Work} {due : State → Bool}
    {f : State → State} (ha : s.agenda = w :: ws) (hd : due s = false) :
    (.next (s.takeRow w due f) : Host.Outcome State Fault Refusal) = .next s :=
  congrArg _ (State.takeRow_front_not_due ha hd)

/-- A command that serves a request has no effect where no serving is owed (log 2). -/
theorem exec_serving_not_owed {d : DriveLink} (h : Work.serve d ∉ s.agenda) :
    ∀ c ∈ [Instr.claim d, .release d, .enable d, .disable d, .clear d, .reserve d, .readFaults d,
        .readGlobal d, .readParam d, .writeParam d, .enterSetup d, .leaveSetup d, .store d,
        .forceLeg d, .unknownKind d],
      exec c s = .next s := by
  have served (k : Kind) (f : State → State) :
      (.next (s.takeServed d k f) : Host.Outcome State Fault Refusal) = .next s :=
    State.next_takeRow_not_owed h _ f
  simp only [List.forall_mem_cons, List.not_mem_nil, false_imp_iff, implies_true, and_true]
  exact ⟨served .claim _, served .release _, served .enable _, served .disable _, served .clear _,
    served .reserve _, served .readFaults _, served .readGlobal _, served .readParam _,
    served .writeParam _, served .enterSetup _, served .leaveSetup _, served .store _,
    served .forceLeg _, served .unknown _⟩

/-- A command that names its work by itself has no effect where that work is not owed (log 2). -/
theorem exec_row_not_owed {c : Instr} {w : Work}
    (hc : (c, w) ∈ (List.finRange 24).map (fun l => (Instr.overcurrent l, Work.overcurrent l)) ++
        (List.finRange 8).map (fun i => (Instr.stopCounterExpiry i, Work.stopExpiry i)) ++
        (List.finRange 8).map (fun i => (Instr.currentSum i, Work.currentSum i)) ++
        (List.finRange 8).map (fun i =>
          (Instr.calibrationComplete i, Work.calibrationComplete (s.leadOf i))) ++
        [(.safetyTimeout, .freshness), (.linkReset .a, .linkReset .a),
          (.linkReset .b, .linkReset .b), (.linkReset .s, .linkReset .s)])
    (h : w ∉ s.agenda) : exec c s = .next s := by
  simp only [List.mem_append, List.mem_map, List.mem_finRange, true_and, List.mem_cons,
    List.not_mem_nil, or_false, Prod.mk.injEq] at hc
  obtain (((⟨l, rfl, rfl⟩ | ⟨i, rfl, rfl⟩) | ⟨i, rfl, rfl⟩) | ⟨i, rfl, rfl⟩) |
    ⟨rfl, rfl⟩ | ⟨rfl, rfl⟩ | ⟨rfl, rfl⟩ | ⟨rfl, rfl⟩ := hc <;>
    exact State.next_takeRow_not_owed h _ _

/-- The clocks of the part stand while RST is low (R72, R177). -/
theorem exec_clock_of_reset (h : s.mode = .reset) (pins : FastPins) (works : List Work)
    (slots : List SlotId) (g : GroupId) (ibs : BitVec 6) (tbs vbs : Bool) (k : Link) (e : Edge)
    (b : Bool) :
    ∀ c ∈ [Instr.fastSampleEvent pins works, .cycLossTimeout works, .internalCycleEvent works,
        .vDcSampleEvent slots, .tempSampleEvent slots, .modulatorClockEdge g ibs tbs vbs,
        .linkClockEdge k e b],
      exec c s = .next s := by
  simp only [List.forall_mem_cons, List.not_mem_nil, false_imp_iff, implies_true, and_true]
  exact ⟨congrArg _ (if_pos h), congrArg _ (if_neg fun hn => hn.1 h),
    congrArg _ (if_neg fun hn => hn.1 h), congrArg _ (if_pos h), congrArg _ (if_pos h),
    congrArg _ (if_pos h), congrArg _ (if_pos h)⟩

/-- No carrier runs outside OPERATE (R58). -/
theorem exec_carrier_of_not_operate (h : s.mode ≠ .operate) (g : GroupId) (order : List Work)
    (l : LegId) (slope : Slope) :
    exec (.periodEvent g order) s = .next s ∧ exec (.carrierCompareMatch l slope) s = .next s := by
  refine ⟨congrArg _ (if_neg fun hn => h hn.1), congrArg _ (if_neg fun hn => h ?_)⟩
  simp only [State.matchDue, Bool.and_eq_true, beq_iff_eq] at hn
  obtain ⟨⟨⟨hm, -⟩, -⟩, -⟩ := hn
  exact hm

/-- A leg without a pending turn-on has none fall due (R56). -/
theorem State.deadTimeTurnOn_of_none {l : LegId} (h : (s.leg l).pendingOn = none) :
    s.deadTimeTurnOn l = s := by
  simp only [State.deadTimeTurnOn, h]

/-- The programming of no page ends while no STORE is in flight (R183). -/
theorem State.storePageDone_of_none (h : s.storeOp = none) (page : Page) :
    s.storePageDone page = s := by
  simp only [State.storePageDone, h]

/-- Settles O2: each command is one operation behind a condition, and that condition fails. -/
theorem commandsWithoutCauseDoNothing : Obligations.CommandsWithoutCauseDoNothing := by
  intro s
  exact
    ⟨fun c w hc h => exec_row_not_owed hc h,
      fun i ph h => State.next_takeRow_not_owed h _ _,
      fun d order h => State.next_takeRow_not_owed h _ _,
      fun d h => exec_serving_not_owed h,
      fun h pins works slots g ibs tbs vbs k e b =>
        exec_clock_of_reset h pins works slots g ibs tbs vbs k e b,
      fun h => congrArg _ (if_neg h),
      fun h => ⟨congrArg _ (if_neg h), congrArg _ (if_neg fun hn => h hn.1)⟩,
      fun h => congrArg _ (if_neg fun hn => h hn.2),
      fun h g order l slope => exec_carrier_of_not_operate h g order l slope,
      fun h page => congrArg _ (State.storePageDone_of_none h page),
      fun l h => congrArg _ (State.deadTimeTurnOn_of_none h),
      fun k h => congrArg _ (if_pos h),
      fun d h => congrArg _ (if_pos h),
      fun h => congrArg _ (if_pos h)⟩

/-! ### Notices and their sources -/

section
variable {i : SlotId} {l : LegId}

theorem SlotState.isRunning_iff (x : SlotState) : x.isRunning = true ↔ x = .run ∨ x = .stopping := by
  cases x <;> simp [SlotState.isRunning]

/-- An OVERCURRENT notice of a leg of slot `i` stands out when that slot is active and the count stands at
OC_N (R77). -/
theorem State.overcurrentDue_iff (hl : s.slotOfLeg l = some i) :
    s.overcurrentDue l = true ↔
      (s.slot i).state.isActive = true ∧ (s.leg l).ocCount = s.image.ocN i := by
  simp [State.overcurrentDue, hl]

theorem State.currentSumDue_iff :
    s.currentSumDue i = true ↔
      ((s.slot i).state = .run ∨ (s.slot i).state = .stopping) ∧
        (s.slot i).check.sumCount = s.image.isumN i := by
  simp [State.currentSumDue, SlotState.isRunning_iff]

theorem State.legImbalanceDue_iff {ph : Phase} :
    s.legImbalanceDue i ph = true ↔
      ((s.slot i).state = .run ∨ (s.slot i).state = .stopping) ∧
        (s.slot i).check.imbCount[phaseIndex ph] = s.image.isumN i := by
  simp [State.legImbalanceDue, SlotState.isRunning_iff]

/-- The notice of a leg of slot `i` is that slot's, when its source is present (R77). -/
theorem State.overcurrentNotice_of_slot (hl : s.slotOfLeg l = some i) :
    s.overcurrentNotice l =
      if s.overcurrentDue l then s.takeNotice i .overcurrent (some l) else s := by
  simp only [State.overcurrentNotice, hl]

/-- A stream is stuck at a run of 128 equal bits (R78). -/
theorem stuck_iff (n : Nat) : stuck n = true ↔ 128 ≤ n := decide_eq_true_iff

theorem State.streamNotice_of_slot (hl : s.slotOfLeg l = some i) :
    s.streamNotice l =
      if 128 ≤ (s.leg l).runLen then s.takeNotice i .stream (some l) else s := by
  simp only [State.streamNotice, hl, stuck_iff]

theorem State.driverNotice_of_slot (hl : s.slotOfLeg l = some i) :
    s.driverNotice l = if (s.leg l).ready then s else s.takeNotice i .driver (some l) := by
  simp only [State.driverNotice, hl]

/-- A leg of no slot's leg set raises no notice (R76). -/
theorem State.streamNotice_of_none (hl : s.slotOfLeg l = none) : s.streamNotice l = s := by
  simp only [State.streamNotice, hl, ite_self]

theorem State.driverNotice_of_none (hl : s.slotOfLeg l = none) : s.driverNotice l = s := by
  simp only [State.driverNotice, hl, ite_self]

end

/-- Settles O12: what stands out of each notice decides its command and its work alike. -/
theorem countedNoticesFault : Obligations.CountedNoticesFault := by
  intro s i ws
  refine ⟨fun l ha hl hact hcount => ?_, fun ha hrun hcount => ?_, fun ph ha hrun hcount => ?_,
    fun l hl => ⟨fun h => ?_, fun h => ?_, fun h => ?_, fun h => ?_⟩,
    fun l ha hl hcount => ?_, fun ha hcount => ?_, fun ph ha hcount => ?_,
    fun l hl => ⟨State.streamNotice_of_none hl, State.driverNotice_of_none hl⟩⟩
  · have hd := (State.overcurrentDue_iff hl).mpr ⟨hact, hcount⟩
    have hf := (State.overcurrentNotice_of_slot hl).trans (if_pos hd)
    exact hf ▸ State.next_takeRow_front ha hd
  · have hd := State.currentSumDue_iff.mpr ⟨hrun, hcount⟩
    have hf : s.currentSumNotice i = _ := if_pos hd
    exact hf ▸ State.next_takeRow_front ha hd
  · have hd := State.legImbalanceDue_iff.mpr ⟨hrun, hcount⟩
    have hf : s.legImbalanceNotice i ph = _ := if_pos hd
    exact hf ▸ State.next_takeRow_front ha hd
  · exact (State.streamNotice_of_slot hl).trans (if_pos h)
  · exact (State.streamNotice_of_slot hl).trans (if_neg (by omega))
  · exact (State.driverNotice_of_slot hl).trans (if_neg (by simp [h]))
  · exact (State.driverNotice_of_slot hl).trans (if_pos h)
  · have hd : ¬s.overcurrentDue l = true := fun h => hcount ((State.overcurrentDue_iff hl).mp h).2
    exact ⟨State.next_takeRow_front_not_due ha (Bool.eq_false_iff.mpr hd),
      (State.overcurrentNotice_of_slot hl).trans (if_neg hd)⟩
  · have hd : ¬s.currentSumDue i = true := fun h => hcount (State.currentSumDue_iff.mp h).2
    exact ⟨State.next_takeRow_front_not_due ha (Bool.eq_false_iff.mpr hd), if_neg hd⟩
  · have hd : ¬s.legImbalanceDue i ph = true := fun h => hcount (State.legImbalanceDue_iff.mp h).2
    exact ⟨State.next_takeRow_front_not_due ha (Bool.eq_false_iff.mpr hd), if_neg hd⟩

end Sys2Proof.Machine
end


section
/-! SUPPORT. The clock alone as it comes to an event of its own (log 3), and the bits of a modulator clock
edge (R72, R73, R87, R92). -/

namespace Sys2Proof.Machine

variable (s : State) (g : GroupId) (ibs : BitVec 6) (tbs vbs : Bool)

/-! ### The clock at an event -/

/-- The clock changes the count and the loaded marks, and nothing else (R142). -/
theorem State.atCount_frame (t : Nat) :
    { s.atCount t with slots := s.slots, now := s.now } = s := by
  unfold State.atCount
  split <;> rfl

/-- Coming to the next instant of a periodic event sets the clock there. -/
theorem State.atCount_nextInstant_now {p : Nat} (hp : 0 < p) (last : Nat) :
    (s.atCount (nextInstant p last s.now)).now = nextInstant p last s.now := by
  rw [State.atCount_now]
  exact max_eq_right (nextInstant_ge p last s.now hp)

/-! ### Windows (R73) -/

/-- A window's sum is its ones less its zeros. -/
theorem windowSum_eq (w : List Bool) : windowSum w = (w.count true : Int) - w.count false := by
  induction w with
  | nil => rfl
  | cons b w ih =>
    have hcons : windowSum (b :: w) = (if b then 1 else -1) + windowSum w := rfl
    rw [hcons, ih]
    cases b <;> simp <;> omega

theorem Leg.raw_eq (x : Leg) :
    x.raw = max (-32768) (min (32 * ((x.window.count true : Int) - x.window.count false)) 32767) := by
  rw [Leg.raw, windowSum_eq, sat16_eq]

theorem Leg.fastRaw_eq (x : Leg) :
    x.fastRaw = max (-32768) (min
      (512 * (((x.window.take 64).count true : Int) - (x.window.take 64).count false)) 32767) := by
  rw [Leg.fastRaw, windowSum_eq, sat16_eq]
  rfl

/-! ### The bits of an edge -/

/-- An edge changes legs and groups, and at MCK0 the V_dc window (R72, R92). -/
theorem State.takeBits_eq :
    s.takeBits g ibs tbs vbs =
      { (s.mapLegs fun l x =>
          if groupOf l = g then x.takeBit (ibs.getLsbD (l.val % 6)) else x).setGroup g
            ((s.group g).takeBit tbs) with
        dc := if g = 0 then { s.dc with window := pushBit s.dc.window vbs } else s.dc } := by
  unfold State.takeBits
  have hdc := s.mapLegs_dc fun l x =>
    if groupOf l = g then x.takeBit (ibs.getLsbD (l.val % 6)) else x
  generalize (s.mapLegs fun l x =>
    if groupOf l = g then x.takeBit (ibs.getLsbD (l.val % 6)) else x) = t at hdc ⊢
  by_cases h : g = 0
  · simp only [h, if_true, hdc, State.setGroup_dc]
  · simp only [h, if_false, ← hdc]
    rfl

theorem State.takeBits_leg (l : LegId) :
    (s.takeBits g ibs tbs vbs).leg l =
      if groupOf l = g then (s.leg l).takeBit (ibs.getLsbD (l.val % 6)) else s.leg l := by
  simp only [State.takeBits_eq, State.leg, State.setGroup]
  exact s.leg_mapLegs _ l

theorem State.takeBits_group (h : GroupId) :
    (s.takeBits g ibs tbs vbs).group h = if g = h then (s.group g).takeBit tbs else s.group h := by
  simp only [State.takeBits_eq, State.group, State.setGroup, State.mapLegs]
  exact s.group_setGroup g h _

theorem State.takeBits_dc :
    (s.takeBits g ibs tbs vbs).dc =
      if g = 0 then { s.dc with window := pushBit s.dc.window vbs } else s.dc := by
  rw [State.takeBits_eq]

/-- Legs, groups and the V_dc window take bits, and nothing else does. -/
theorem State.takeBits_frame :
    { s.takeBits g ibs tbs vbs with legs := s.legs, groups := s.groups, dc := s.dc } = s := by
  simp only [State.takeBits_eq, State.setGroup, State.mapLegs]

/-! ### The edge -/

/-- The instant of an edge of MCKg that finds nothing owed: the clock comes there, and the group notes it. -/
structure State.EdgeInstant (s : State) (g : GroupId) (p : State) : Prop where
  now : p.now = nextInstant 5 (s.group g).lastMck s.now
  leg : ∀ l, p.leg l = s.leg l
  group : ∀ h, p.group h = if g = h then { s.group g with lastMck := p.now } else s.group h
  dc : p.dc = s.dc
  frame : { p with slots := s.slots, groups := s.groups, now := s.now } = s

variable {s} in
theorem State.atModulatorEdge_of_empty (ha : s.agenda = []) :
    s.EdgeInstant g (s.atModulatorEdge g) := by
  have hnow := s.atCount_nextInstant_now (p := 5) (by omega) (s.group g).lastMck
  have hclock : s.atModulatorEdge g =
      (s.atCount (nextInstant 5 (s.group g).lastMck s.now)).setGroup g
        { s.group g with
          lastMck := (s.atCount (nextInstant 5 (s.group g).lastMck s.now)).now } := by
    unfold State.atModulatorEdge
    rw [State.arrive_of_empty ha]
    simp only [State.atCount_group]
    rfl
  generalize hn : nextInstant 5 (s.group g).lastMck s.now = n at hnow hclock
  have hframe := s.atCount_frame n
  rw [hclock]
  refine ⟨hnow.trans hn.symm, s.atCount_leg n, fun h => ?_, s.atCount_dc n, ?_⟩
  · rw [State.group_setGroup, s.atCount_group n]
    rfl
  · exact (congrArg (fun x : State => { x with groups := s.groups }) hframe :)

/-- Settles O22: the clock, the mark of the edge and the bits, record by record. -/
theorem clockEdgeTakesBits : Obligations.ClockEdgeTakesBits := by
  intro s g ibs tbs vbs hm ha
  have hp := State.atModulatorEdge_of_empty g ha
  have hevent : s.modulatorClockEdge g ibs tbs vbs = (s.atModulatorEdge g).takeBits g ibs tbs vbs :=
    if_neg hm
  generalize s.atModulatorEdge g = p at hp hevent
  have hleg := p.takeBits_leg g ibs tbs vbs
  have hgroup := p.takeBits_group g ibs tbs vbs
  have hdc := p.takeBits_dc g ibs tbs vbs
  have hbits := p.takeBits_frame g ibs tbs vbs
  generalize p.takeBits g ibs tbs vbs = t at *
  have hnow : t.now = p.now := (congrArg State.now hbits :)
  have hframe : { t with
      slots := s.slots, legs := s.legs, groups := s.groups, dc := s.dc, now := s.now } = s :=
    (congrArg (fun x : State => { x with
      slots := s.slots, legs := s.legs, groups := s.groups, dc := s.dc, now := s.now }) hbits).trans
      (congrArg (fun x : State => { x with legs := s.legs, dc := s.dc }) hp.frame)
  refine ⟨t, congrArg _ hevent, hnow.trans hp.now, fun l => ?_, fun h => ?_, ?_,
    (congrArg State.safety hframe :), (congrArg State.cyc hframe :),
    (congrArg State.drives hframe :), (congrArg State.ports hframe :),
    (congrArg State.mode hframe :), (congrArg State.image hframe :),
    (congrArg State.globalSet hframe :), fun l => ⟨(s.leg l).raw_eq, (s.leg l).fastRaw_eq⟩⟩
  · rw [hleg, hp.leg]
    rfl
  · rw [hgroup, hp.group, hp.group, hnow, if_pos rfl]
    simp only [eq_comm (a := h)]
    split
    · rfl
    · rfl
  · rw [hdc, hp.dc]
    rfl

end Sys2Proof.Machine
end


section
/-! SUPPORT. What a row of notices of one cause leaves of each slot (R16, R153): a slot that no notice reaches
stays as it is, one that is reached by its own notice first is faulted under the cause, and its active
partner with it under PARTNER. -/

namespace Sys2Proof.Machine

variable (s : State) (i j k : SlotId) (c : Cause) (leg : Option LegId)

/-! ### What notices keep of a slot -/

/-- A row of notices leaves a slot as it is, or faults it when it was active (R16). -/
theorem State.takeNotices_slot_or (order : List SlotId) :
    (s.takeNotices order c).slot j = s.slot j ∨
      (s.slot j).state.isActive = true ∧
        ∃ c' leg', (s.takeNotices order c).slot j = (s.slot j).faulted c' leg' s.cyc.number := by
  induction order generalizing s with
  | nil => exact .inl rfl
  | cons i is ih =>
    have hcyc := (s.takeNotice_sameRest i c none).cyc
    change ((s.takeNotice i c none).takeNotices is c).slot j = _ ∨ _ ∧
      ∃ c' leg', ((s.takeNotice i c none).takeNotices is c).slot j = _
    rcases s.takeNotice_slot_or i j c none with hsame | ⟨hact, c', leg', hfault⟩
    · simpa only [hsame, hcyc] using ih (s.takeNotice i c none)
    · refine .inr ⟨hact, c', leg', ?_⟩
      rw [State.takeNotices_of_not_active _ j c is (by rw [hfault]; rfl), hfault]

/-- The group of a slot, which R2 derives, is not touched by notices. -/
theorem State.takeNotices_slot_group (order : List SlotId) :
    ((s.takeNotices order c).slot j).group = (s.slot j).group := by
  rcases s.takeNotices_slot_or j c order with h | ⟨-, c', leg', h⟩ <;> rw [h]
  rfl

theorem State.takeNotice_slot_group : ((s.takeNotice i c leg).slot j).group = (s.slot j).group := by
  rcases s.takeNotice_slot_or i j c leg with h | ⟨-, c', leg', h⟩ <;> rw [h]
  rfl

theorem State.takeNotices_append (xs ys : List SlotId) :
    s.takeNotices (xs ++ ys) c = (s.takeNotices xs c).takeNotices ys c :=
  List.foldl_append

/-! ### Which slots a notice reaches -/

/-- A notice for slot `k` reaches slot `j`: `k` is active, and is `j` or has `j` as its partner (R16). -/
def State.Reaches (s : State) (k j : SlotId) : Prop :=
  (s.slot k).state.isActive = true ∧ (k = j ∨ (s.slot k).partner = some j)

/-- A slot that a notice does not reach stays as it is. -/
theorem State.takeNotice_slot_of_not_reaches (h : ¬s.Reaches k j) :
    (s.takeNotice k c leg).slot j = s.slot j := by
  by_cases ha : (s.slot k).state.isActive = true
  · obtain ⟨hne, hp⟩ := not_or.mp (not_and.mp h ha)
    rw [State.takeNotice_slot s k j c leg ha, if_neg hne, if_neg (by simp [State.takesPartner, hp])]
  · rw [State.takeNotice_of_not_active s k c leg (by simpa using ha)]

variable {s j k} in
/-- Notices give no slot a longer reach. -/
theorem State.Reaches.of_takeNotice (h : (s.takeNotice i c leg).Reaches k j) : s.Reaches k j := by
  unfold State.Reaches at h
  rcases s.takeNotice_slot_or i k c leg with hk | ⟨-, c', leg', hk⟩ <;> rw [hk] at h
  · exact h
  · cases h.1

/-- A slot that no notice of a row reaches stays as it is. -/
theorem State.takeNotices_slot_of_not_reached {order : List SlotId}
    (h : ∀ k ∈ order, ¬s.Reaches k j) : (s.takeNotices order c).slot j = s.slot j := by
  induction order generalizing s with
  | nil => rfl
  | cons x xs ih =>
    obtain ⟨hx, hxs⟩ := List.forall_mem_cons.mp h
    calc ((s.takeNotice x c none).takeNotices xs c).slot j
        = (s.takeNotice x c none).slot j := ih _ fun k hk hr => hxs k hk (hr.of_takeNotice x c none)
      _ = s.slot j := s.takeNotice_slot_of_not_reaches j x c none hx

variable {k} in
/-- An active slot whose own notice is the first to reach it is faulted under the cause (R16, R153). -/
theorem State.takeNotices_first {xs ys : List SlotId} (ha : (s.slot k).state.isActive = true)
    (hk : ∀ m ∈ xs, ¬s.Reaches m k) :
    (s.takeNotices (xs ++ k :: ys) c).slot k = (s.slot k).faulted c none s.cyc.number := by
  have hu := s.takeNotices_slot_of_not_reached k c hk
  have hcyc := (s.takeNotices_sameRest c xs).cyc
  have hnotice : ((s.takeNotices xs c).takeNotice k c none).slot k =
      (s.slot k).faulted c none s.cyc.number := by
    rw [State.takeNotice_slot _ k k c none (by rwa [hu]), if_pos rfl, hu, hcyc]
  rw [s.takeNotices_append]
  change (((s.takeNotices xs c).takeNotice k c none).takeNotices ys c).slot k = _
  rw [State.takeNotices_of_not_active _ k c ys (by rw [hnotice]; rfl), hnotice]

variable {j k} in
/-- Its active partner, not reached before either, is faulted under PARTNER with it (R16, R153). -/
theorem State.takeNotices_first_partner {xs ys : List SlotId} (hne : k ≠ j)
    (hp : (s.slot k).partner = some j) (hak : (s.slot k).state.isActive = true)
    (haj : (s.slot j).state.isActive = true) (hk : ∀ m ∈ xs, ¬s.Reaches m k)
    (hj : ∀ m ∈ xs, ¬s.Reaches m j) :
    (s.takeNotices (xs ++ k :: ys) c).slot j = (s.slot j).faulted .partner none s.cyc.number := by
  have huk := s.takeNotices_slot_of_not_reached k c hk
  have huj := s.takeNotices_slot_of_not_reached j c hj
  have hcyc := (s.takeNotices_sameRest c xs).cyc
  have hnotice : ((s.takeNotices xs c).takeNotice k c none).slot j =
      (s.slot j).faulted .partner none s.cyc.number := by
    rw [State.takeNotice_slot _ k j c none (by rwa [huk]), if_neg hne,
      if_pos (by simp [State.takesPartner, huk, huj, hp, hne, haj]), huj, hcyc]
  rw [s.takeNotices_append]
  change (((s.takeNotices xs c).takeNotice k c none).takeNotices ys c).slot j = _
  rw [State.takeNotices_of_not_active _ j c ys (by rw [hnotice]; rfl), hnotice]

/-! ### The notices of one cause -/

theorem Slot.faulted_faultedUnder (x : Slot) (n : Word) : x.FaultedUnder c n (x.faulted c none n) :=
  ⟨rfl, rfl, rfl, rfl, rfl, rfl, rfl⟩

/-- Of two members of a list, one stands before both (the other's first place is behind it). -/
theorem exists_first_of_two {α : Type} [DecidableEq α] {l : List α} {a b : α} (ha : a ∈ l)
    (hb : b ∈ l) :
    ∃ xs ys, (l = xs ++ a :: ys ∨ l = xs ++ b :: ys) ∧ a ∉ xs ∧ b ∉ xs := by
  obtain ⟨xs, ys, rfl, hax⟩ := List.eq_append_cons_of_mem ha
  by_cases hbx : b ∈ xs
  · obtain ⟨zs, ws, rfl, hbz⟩ := List.eq_append_cons_of_mem hbx
    exact ⟨zs, ws ++ a :: ys, .inr (by simp), fun h => hax (by simp [h]), hbz⟩
  · exact ⟨xs, ys, .inl rfl, hax, hbx⟩

variable {s i j} in
theorem State.Paired.symm (h : s.Paired i j) : s.Paired j i := by
  obtain ⟨hne, hnames⟩ := h
  exact ⟨hne.symm, fun m => (hnames m).symm⟩

variable {s i j k} in
/-- Only the members of a pair reach one of them (R18). -/
theorem State.Paired.not_reaches (h : s.Paired i j) (hi : k ≠ i) (hj : k ≠ j) : ¬s.Reaches k i := by
  rintro ⟨-, rfl | hp⟩
  · exact hi rfl
  · exact hj ((h.2 k).1.mp hp)

variable {s i j} in
/-- Of an active pair, the member whose notice is the first for either is faulted under the cause, and the
other under PARTNER (R16, R153). -/
theorem State.Paired.takeNotices {xs ys : List SlotId} (h : s.Paired i j)
    (hai : (s.slot i).state.isActive = true) (haj : (s.slot j).state.isActive = true) (hi : i ∉ xs)
    (hj : j ∉ xs) :
    (s.slot i).FaultedUnder c s.cyc.number ((s.takeNotices (xs ++ i :: ys) c).slot i) ∧
      (s.slot j).FaultedUnder .partner s.cyc.number ((s.takeNotices (xs ++ i :: ys) c).slot j) := by
  have hri : ∀ m ∈ xs, ¬s.Reaches m i := fun m hm =>
    h.not_reaches (fun e => hi (e ▸ hm)) (fun e => hj (e ▸ hm))
  have hrj : ∀ m ∈ xs, ¬s.Reaches m j := fun m hm =>
    h.symm.not_reaches (fun e => hj (e ▸ hm)) (fun e => hi (e ▸ hm))
  obtain ⟨hne, hnames⟩ := h
  rw [s.takeNotices_first c hai hri,
    s.takeNotices_first_partner c hne ((hnames i).2.mpr rfl) hai haj hri hrj]
  exact ⟨(s.slot i).faulted_faultedUnder c _, (s.slot j).faulted_faultedUnder .partner _⟩

/-- A row of notices of one cause, to the slots that `hit` admits, in whatever order (R16, R153). -/
theorem State.takeNotices_noticed {hit : SlotId → Prop} {order : List SlotId}
    (hhit : ∀ i, hit i ↔ i ∈ order) : s.Noticed c hit (s.takeNotices order c) := by
  refine ⟨fun i hi ha hother => ?_, fun i j hp hi hj hai haj => ?_, fun i j hp hi hj hai haj => ?_,
    fun i hi ha => ?_⟩
  · obtain ⟨xs, ys, hsplit, hxs⟩ := List.eq_append_cons_of_mem ((hhit i).mp hi)
    have hfirst : ∀ m ∈ xs, ¬s.Reaches m i := by
      rintro m hm ⟨hact, heq⟩
      have hne : m ≠ i := fun e => hxs (e ▸ hm)
      have hmhit : hit m := (hhit m).mpr (hsplit ▸ List.mem_append_left _ hm)
      have hoff := hother m hne (heq.resolve_left hne) hmhit
      simp [hoff] at hact
    rw [hsplit, s.takeNotices_first c ha hfirst]
    exact (s.slot i).faulted_faultedUnder c _
  · obtain ⟨xs, ys, hsplit, hxs⟩ := List.eq_append_cons_of_mem ((hhit i).mp hi)
    have hjxs : j ∉ xs := fun hm => hj ((hhit j).mpr (hsplit ▸ List.mem_append_left _ hm))
    rw [hsplit]
    exact (hp.takeNotices c hai haj hxs hjxs).2
  · obtain ⟨xs, ys, hsplit | hsplit, hix, hjx⟩ :=
      exists_first_of_two ((hhit i).mp hi) ((hhit j).mp hj)
    · rw [hsplit]
      exact .inl (hp.takeNotices c hai haj hix hjx)
    · rw [hsplit]
      exact .inr (hp.symm.takeNotices c haj hai hjx hix).symm
  · have hfault := s.takeNotices_fault i c order ((hhit i).mp hi) ha
    obtain ⟨hintD, hintQ⟩ : ((s.takeNotices order c).slot i).intD = 0 ∧
        ((s.takeNotices order c).slot i).intQ = 0 := by
      rcases s.takeNotices_slot_or i c order with h | ⟨-, c', leg', h⟩
      · rw [h] at hfault
        rw [hfault] at ha
        cases ha
      · rw [h]
        exact ⟨rfl, rfl⟩
    refine ⟨hfault, hintD, hintQ, fun x hx => ?_⟩
    have hholds : (s.slot i).holds x.leg = true := by
      simp only [Slot.holds, List.any_eq_true]
      exact ⟨x, hx, by simp⟩
    rw [(s.takeNotices_legs x.leg c order).1 ⟨i, ⟨ha, hfault⟩, hholds⟩]
    exact ⟨Leg.turnOff_isOff _, rfl⟩

variable {s c} in
/-- What notices leave is told alike of a state whose slots differ in their loaded marks alone (R142). -/
theorem State.Noticed.of_marks {hit : SlotId → Prop} {u t : State} (h : u.Noticed c hit t)
    (hslot : ∀ i, ∃ b, u.slot i = { s.slot i with stopLoaded := b }) (hcyc : u.cyc = s.cyc) :
    s.Noticed c hit t := by
  choose b hb using hslot
  have hstate : ∀ i, (u.slot i).state = (s.slot i).state := fun i => by rw [hb]
  have hpartner : ∀ i, (u.slot i).partner = (s.slot i).partner := fun i => by rw [hb]
  have hseats : ∀ i, (u.slot i).seats = (s.slot i).seats := fun i => by rw [hb]
  have hunder : ∀ i c' n y, (u.slot i).FaultedUnder c' n y ↔ (s.slot i).FaultedUnder c' n y :=
    fun i c' n y => by
      rw [hb]
      exact ⟨fun h => ⟨h.state, h.causes, h.firstFault, h.loop⟩,
        fun h => ⟨h.state, h.causes, h.firstFault, h.loop⟩⟩
  obtain ⟨alone, withPartner, both, legs⟩ := h
  simp only [State.Paired, hunder, hstate, hpartner, hseats, hcyc] at alone withPartner both legs
  exact ⟨alone, withPartner, both, legs⟩

end Sys2Proof.Machine
end


section
/-! SUPPORT. The work of a temperature sample event (R87 to R90): the groups read, the warning set, and the
notices of the slots of a group at or above T_TRIP. -/

namespace Sys2Proof.Machine

variable (s : State) (i : SlotId) (g : GroupId)

/-! ### A flag with a source -/

@[simp] theorem State.setFlagIf_slot (b : Bool) (f : Flag) : (s.setFlagIf b f).slot i = s.slot i := by
  cases b <;> rfl

@[simp] theorem State.setFlagIf_group (b : Bool) (f : Flag) :
    (s.setFlagIf b f).group g = s.group g := by
  cases b <;> rfl

theorem State.setFlagIf_globalSet (b : Bool) (f : Flag) :
    (s.setFlagIf b f).globalSet = if b then s.globalSet ||| f.bit else s.globalSet := by
  cases b <;> rfl

/-- A flag changes the global set alone (R158). -/
theorem State.setFlagIf_frame (b : Bool) (f : Flag) :
    { s.setFlagIf b f with globalSet := s.globalSet } = s := by
  cases b <;> rfl

/-! ### The readings (R87, R90) -/

/-- Every group read, and TEMP_WARN set while one is above T_WARN. -/
def State.readTemps (s : State) : State :=
  let t := s.mapGroups fun _ x => x.tempSample s.image.tTrip
  t.setFlagIf t.tempWarm .tempWarn

@[simp] theorem State.readTemps_slot : s.readTemps.slot i = s.slot i := by
  simp [State.readTemps]

@[simp] theorem State.readTemps_group :
    s.readTemps.group g = (s.group g).tempSample s.image.tTrip := by
  simp [State.readTemps]

theorem State.tempWarm_iff : s.tempWarm = true ↔ ∃ g, s.image.tWarn < (s.group g).temp := by
  simp [State.tempWarm]

/-- The readings change the groups and the global set, and nothing else. -/
theorem State.readTemps_frame :
    { s.readTemps with groups := s.groups, globalSet := s.globalSet } = s := by
  have h := State.setFlagIf_frame (s.mapGroups fun _ x => x.tempSample s.image.tTrip)
    (s.mapGroups fun _ x => x.tempSample s.image.tTrip).tempWarm .tempWarn
  have hmap : { s.mapGroups fun _ x => x.tempSample s.image.tTrip with groups := s.groups } = s := by
    simp only [State.mapGroups]
  exact (congrArg (fun x : State => { x with groups := s.groups, globalSet := s.globalSet }) h).trans
    (congrArg (fun x : State => { x with globalSet := s.globalSet }) hmap)

/-- TEMP_WARN is set when a group has read above T_WARN, and only then (R90). -/
theorem State.readTemps_globalSet :
    ((∃ g, s.image.tWarn < (s.readTemps.group g).temp) →
        s.readTemps.globalSet = s.globalSet ||| 0x0080#16) ∧
      ((∀ g, (s.readTemps.group g).temp ≤ s.image.tWarn) → s.readTemps.globalSet = s.globalSet) := by
  set t := s.mapGroups fun _ x => x.tempSample s.image.tTrip with ht
  have hgroup : ∀ g, s.readTemps.group g = t.group g := fun g => t.setFlagIf_group g _ _
  have himage : t.image = s.image := s.mapGroups_image _
  have hset : s.readTemps.globalSet = _ := t.setFlagIf_globalSet t.tempWarm .tempWarn
  have hbefore : t.globalSet = s.globalSet := s.mapGroups_globalSet _
  simp only [hgroup, hset, hbefore]
  refine ⟨fun ⟨g, h⟩ => if_pos (t.tempWarm_iff.mpr ⟨g, himage ▸ h⟩), fun h => if_neg fun hw => ?_⟩
  obtain ⟨g, hg⟩ := t.tempWarm_iff.mp hw
  have := h g
  rw [himage] at hg
  omega

/-! ### L_temp (R88) -/

variable {s i g} in
theorem State.lTemp_of_not_read (hg : (s.slot i).group = some g) (hr : (s.group g).tempRead = false) :
    s.lTemp i = 0 := by
  simp [State.lTemp, hg, hr]

variable {s i g} in
theorem State.lTemp_of_read (hg : (s.slot i).group = some g) (hr : (s.group g).tempRead = true) :
    s.lTemp i =
      if (s.group g).temp ≤ s.image.tWarn then (s.image.iMax i : Int)
      else if (s.group g).temp < s.image.tTrip then
        (s.image.iMax i : Int) * (s.image.tTrip - (s.group g).temp) / (s.image.tTrip - s.image.tWarn)
      else 0 := by
  simp [State.lTemp, hg, hr]

/-! ### The notices (R89) -/

/-- A slot of a group that reads T_TRIP or above: the source of MODULE_OVERTEMP (R89, R152). -/
def State.overheated (s : State) (i : SlotId) : Bool := s.causePresent i none .moduleOvertemp

theorem State.overheated_iff :
    s.overheated i = true ↔ ∃ g, (s.slot i).group = some g ∧ s.image.tTrip ≤ (s.group g).temp := by
  unfold State.overheated State.causePresent
  cases (s.slot i).group <;> simp

theorem State.overtempNotice_eq :
    s.overtempNotice i = if s.overheated i then s.takeNotice i .moduleOvertemp none else s := by
  unfold State.overtempNotice State.overheated State.causePresent
  cases (s.slot i).group with
  | none => rfl
  | some g => simp

/-- Notices leave the sources of MODULE_OVERTEMP as they are. -/
theorem State.overheated_takeNotice (k : SlotId) (c : Cause) (leg : Option LegId) :
    (s.takeNotice k c leg).overheated = s.overheated := by
  funext i
  have hrest := s.takeNotice_sameRest k c leg
  simp only [State.overheated, State.causePresent, State.group, hrest.image, hrest.groups,
    s.takeNotice_slot_group k i c leg]
  rfl

/-- The notices of a temperature sample event are a row of notices to the slots that are overheated. -/
theorem State.foldl_overtempNotice (order : List SlotId) :
    order.foldl State.overtempNotice s =
      s.takeNotices (order.filter s.overheated) .moduleOvertemp := by
  induction order generalizing s with
  | nil => rfl
  | cons i is ih =>
    rw [List.foldl_cons, ih, s.overtempNotice_eq i]
    by_cases h : s.overheated i = true
    · rw [if_pos h, List.filter_cons_of_pos h, s.overheated_takeNotice]
      rfl
    · rw [if_neg h, List.filter_cons_of_neg h]

/-- The slots to which the event sends a notice, in the order given. -/
def State.overheatedSlots (s : State) (order : List SlotId) : List SlotId :=
  (slotsInOrder order).filter s.overheated

theorem State.mem_overheatedSlots (order : List SlotId) :
    i ∈ s.overheatedSlots order ↔ s.overheated i = true := by
  simp [State.overheatedSlots, mem_slotsInOrder]

theorem State.tempEvent_eq (order : List SlotId) :
    s.tempEvent order =
      s.readTemps.takeNotices (s.readTemps.overheatedSlots order) .moduleOvertemp :=
  s.readTemps.foldl_overtempNotice (slotsInOrder order)

/-! ### The event -/

/-- The clock changes no more than the loaded mark of a slot (R142). -/
theorem State.atCount_slot_mark (t : Nat) :
    ∃ b, (s.atCount t).slot i = { s.slot i with stopLoaded := b } := by
  rw [State.atCount_slot]
  split
  · exact ⟨false, rfl⟩
  · exact ⟨(s.slot i).stopLoaded, rfl⟩

/-- The state in which a temperature sample event at count `n`, with nothing owed before it, sends its
notices. -/
def State.tempSampled (s : State) (n : Nat) : State :=
  { s.atCount n with lastTemp := (s.atCount n).now }.readTemps

section
variable (n : Nat)

@[simp] theorem State.tempSampled_slot : (s.tempSampled n).slot i = (s.atCount n).slot i :=
  State.readTemps_slot _ i

@[simp] theorem State.tempSampled_group :
    (s.tempSampled n).group g = (s.group g).tempSample s.image.tTrip := by
  rw [← s.atCount_group n g, ← s.atCount_image n]
  exact State.readTemps_group _ g

/-- Up to its notices, the event changes loaded marks, groups, the global set and the clock alone. -/
theorem State.tempSampled_frame :
    { s.tempSampled n with
      slots := s.slots, groups := s.groups, globalSet := s.globalSet, now := s.now
      lastTemp := s.lastTemp } = s := by
  have hread := State.readTemps_frame { s.atCount n with lastTemp := (s.atCount n).now }
  exact (congrArg (fun x : State => { x with
      slots := s.slots, groups := s.groups, globalSet := s.globalSet, now := s.now
      lastTemp := s.lastTemp }) hread).trans
    (congrArg (fun x : State => { x with
      groups := s.groups, globalSet := s.globalSet, lastTemp := s.lastTemp }) (s.atCount_frame n))

theorem State.tempSampled_clock :
    (s.tempSampled n).now = (s.atCount n).now ∧ (s.tempSampled n).lastTemp = (s.atCount n).now := by
  have hread := State.readTemps_frame { s.atCount n with lastTemp := (s.atCount n).now }
  exact ⟨(congrArg State.now hread :), (congrArg State.lastTemp hread :)⟩

theorem State.tempSampled_rest :
    (s.tempSampled n).image = s.image ∧ (s.tempSampled n).dc = s.dc ∧
      (s.tempSampled n).safety = s.safety ∧ (s.tempSampled n).cyc = s.cyc ∧
      (s.tempSampled n).drives = s.drives ∧ (s.tempSampled n).mode = s.mode := by
  have h := s.tempSampled_frame n
  exact ⟨(congrArg State.image h :), (congrArg State.dc h :), (congrArg State.safety h :),
    (congrArg State.cyc h :), (congrArg State.drives h :), (congrArg State.mode h :)⟩

/-- TEMP_WARN is set when a group reads above T_WARN, and only then (R90). -/
theorem State.tempSampled_globalSet :
    ((∃ g, s.image.tWarn < ((s.tempSampled n).group g).temp) →
        (s.tempSampled n).globalSet = s.globalSet ||| 0x0080#16) ∧
      ((∀ g, ((s.tempSampled n).group g).temp ≤ s.image.tWarn) →
        (s.tempSampled n).globalSet = s.globalSet) := by
  have hset : (s.atCount n).globalSet = s.globalSet := (congrArg State.globalSet (s.atCount_frame n) :)
  rw [← s.atCount_image n, ← hset]
  exact State.readTemps_globalSet { s.atCount n with lastTemp := (s.atCount n).now }

end

variable {s} in
/-- A temperature sample event that finds nothing owed: the clock comes to its instant, the groups are read
and the overheated slots take their notices. -/
theorem State.tempSampleEvent_of_empty (hm : s.mode ≠ .reset) (ha : s.agenda = [])
    (order : List SlotId) :
    s.tempSampleEvent order =
      (s.tempSampled (nextInstant 100000 s.lastTemp s.now)).takeNotices
        ((s.tempSampled (nextInstant 100000 s.lastTemp s.now)).overheatedSlots order)
        .moduleOvertemp := by
  unfold State.tempSampleEvent State.atTempSample
  rw [if_neg hm, State.arrive_of_empty ha]
  exact State.tempEvent_eq _ order

/-- Settles O21: the readings give the groups, the warning and L_temp; the notices go to the overheated
slots. -/
theorem tempSampleActs : Obligations.TempSampleActs := by
  intro s order hm ha
  have he := State.tempSampleEvent_of_empty hm ha order
  have hn : (s.atCount (nextInstant 100000 s.lastTemp s.now)).now = _ :=
    s.atCount_nextInstant_now (by omega) s.lastTemp
  generalize nextInstant 100000 s.lastTemp s.now = n at he hn ⊢
  obtain ⟨himage, hdc, hsafety, hcyc, hdrives, hmode⟩ := s.tempSampled_rest n
  obtain ⟨hnow, hlast⟩ := s.tempSampled_clock n
  obtain ⟨hwarm, hcold⟩ := s.tempSampled_globalSet n
  have hslot := fun i => s.tempSampled_slot i n
  have hgroup := fun g => s.tempSampled_group g n
  generalize s.tempSampled n = v at *
  have hmark : ∀ i, ∃ b, v.slot i = { s.slot i with stopLoaded := b } := fun i =>
    hslot i ▸ s.atCount_slot_mark i n
  obtain ⟨hstate, hcauses, hpartner, hvgroup⟩ : (∀ i, (v.slot i).state = (s.slot i).state) ∧
      (∀ i, (v.slot i).causes = (s.slot i).causes) ∧
      (∀ i, (v.slot i).partner = (s.slot i).partner) ∧
      ∀ i, (v.slot i).group = (s.slot i).group := by
    choose b hb using hmark
    simp [hb]
  have hhot : ∀ i, i ∈ v.overheatedSlots order ↔
      ∃ g, (s.slot i).group = some g ∧ s.image.tTrip ≤ (v.group g).temp := fun i => by
    rw [v.mem_overheatedSlots, v.overheated_iff, hvgroup, himage]
  generalize v.overheatedSlots order = L at he hhot
  have hrest := v.takeNotices_sameRest .moduleOvertemp L
  have hnoticed := v.takeNotices_noticed .moduleOvertemp fun i => (hhot i).symm
  have hinactive : ∀ i, (s.slot i).state.isActive = false →
      (v.takeNotices L .moduleOvertemp).slot i = v.slot i := fun i hi =>
    v.takeNotices_of_not_active i .moduleOvertemp L (by rwa [hstate])
  have hcool : ∀ i, (∀ j, j = i ∨ (s.slot j).partner = some i →
        ∀ g, (s.slot j).group = some g → (v.group g).temp < s.image.tTrip) →
      (v.takeNotices L .moduleOvertemp).slot i = v.slot i := fun i hi =>
    v.takeNotices_slot_of_not_reached i .moduleOvertemp fun k hk hr => by
      obtain ⟨g, hg, hle⟩ := (hhot k).mp hk
      obtain ⟨-, hto⟩ := hr
      have := hi k (hpartner k ▸ hto) g hg
      omega
  have htgroup : ∀ g, (v.takeNotices L .moduleOvertemp).group g = v.group g := fun g =>
    congrArg (fun x => x[g]) hrest.groups
  have htslot : ∀ i, ((v.takeNotices L .moduleOvertemp).slot i).group = (s.slot i).group := fun i =>
    (v.takeNotices_slot_group i .moduleOvertemp L).trans (hvgroup i)
  generalize v.takeNotices L .moduleOvertemp = t at *
  have htnow : t.now = n := hrest.now.trans (hnow.trans hn)
  have htimage : t.image = s.image := hrest.image.trans himage
  refine ⟨t, congrArg _ he, htnow, ?_, ?_⟩
  · rw [htnow, hrest.lastTemp, hlast, hn]
  simp only [htgroup]
  refine ⟨fun g => ?_, fun h => hrest.globalSet.trans (hwarm h),
    fun h => hrest.globalSet.trans (hcold h), hnoticed.of_marks hmark hcyc,
    fun i hi => ?_, fun h i => ?_, fun i hi => ?_,
    fun i g hg => ⟨fun hr => State.lTemp_of_not_read hg hr, ?_⟩,
    hrest.dc.trans hdc, hrest.safety.trans hsafety,
    hrest.cyc.trans hcyc, hrest.drives.trans hdrives,
    hrest.mode.trans hmode⟩
  · rw [hgroup]
    simp only [Group.tempSample, Group.tempOf, stuck_iff]
  · rw [hinactive i hi]
    exact ⟨hstate i, hcauses i⟩
  · rw [hcool i fun j _ g _ => h g]
    exact ⟨hstate i, hcauses i⟩
  · rw [hcool i hi, hslot, htnow]
  · have hread : (t.group g).tempRead = true := by
      rw [htgroup, hgroup]
      rfl
    rw [State.lTemp_of_read ((htslot i).trans hg) hread, htgroup, htimage]

end Sys2Proof.Machine
end


section
/-! SUPPORT. The order in which an event lists its works (R76, R104, R118, R129, R142, R169, R173): a rank that
every list of due works ascends in, and that every rule of order respects. -/

namespace Sys2Proof.Machine

/-! ### Ranks -/

/-- Where a work stands among those of its instant: by its kind first, then by the number it names. -/
def workRank : Work → Nat
  | .legSamples _ => 0
  | .toffAccept _ => 1
  | .overcurrent l => 32 + l.val
  | .streamNotice l => 64 + l.val
  | .driverNotice l => 96 + l.val
  | .cycleEdge => 128
  | .generation _ => 129
  | .serve d => 160 + (driveIndex d).val
  | .applyStaged i => 192 + i.val
  | .intake d => 224 + (driveIndex d).val
  | .stale d => 256 + (driveIndex d).val
  | .closeCycle => 288
  | .allocate => 289
  | .freshness => 290
  | .countdown => 291
  | .stopExpiry i => 320 + i.val
  | .faultCopy i => 352 + i.val
  | .snapshot d => 384 + (driveIndex d).val
  | .safetySnapshot => 416
  | .linkReset k => 448 + (linkIndex k).val
  | .compute g => 480 + g.val
  | .currentSum i => 512 + i.val
  | .legImbalance i ph => 544 + 3 * i.val + (phaseIndex ph).val
  | .calibrationComplete i => 576 + i.val
  | .turnOn l => 608 + l.val

/-- A list of works that ascends in rank, from `lo` on and below `hi`. -/
structure Ranked (lo hi : Nat) (ws : List Work) : Prop where
  ascends : ws.Pairwise fun x w => workRank x < workRank w
  within : ∀ w ∈ ws, lo ≤ workRank w ∧ workRank w < hi

namespace Ranked

variable {a b c d : Nat} {l r : List Work}

theorem nil : Ranked a b [] := ⟨.nil, by simp⟩

theorem singleton {w : Work} (ha : a ≤ workRank w := by simp [workRank])
    (hb : workRank w < b := by simp [workRank]) : Ranked a b [w] :=
  ⟨List.pairwise_singleton _ w, by simpa using ⟨ha, hb⟩⟩

theorem append (hl : Ranked a b l) (hr : Ranked b c r) (hab : a ≤ b := by omega)
    (hbc : b ≤ c := by omega) :
    Ranked a c (l ++ r) := by
  refine ⟨List.pairwise_append.mpr ⟨hl.ascends, hr.ascends, fun x hx w hw => ?_⟩, fun w hw => ?_⟩
  · have := hl.within x hx
    have := hr.within w hw
    omega
  · rcases List.mem_append.mp hw with h | h
    · have := hl.within w h
      omega
    · have := hr.within w h
      omega

/-- A choice of numbered works, in the order of their numbers. -/
theorem map {α : Type} {xs : List α} {f : α → Work} {num : α → Nat}
    (hs : xs.Pairwise fun x y => num x < num y) (hf : ∀ x, workRank (f x) = a + num x)
    (hn : ∀ x, a + num x < b) : Ranked a b (xs.map f) := by
  refine ⟨List.pairwise_map.mpr (hs.imp fun h => ?_), fun w hw => ?_⟩
  · rw [hf, hf]
    omega
  · obtain ⟨x, -, rfl⟩ := List.mem_map.mp hw
    have := hn x
    rw [hf]
    omega

/-- A work of two such lists stands in the one that its rank belongs to. -/
theorem mem_append_iff (hl : Ranked a b l) (hr : Ranked b c r) {w : Work} :
    w ∈ l ++ r ↔ if workRank w < b then w ∈ l else w ∈ r := by
  have hlw := hl.within w
  have hrw := hr.within w
  rw [List.mem_append]
  split
  · exact or_iff_left fun h => by have := hrw h; omega
  · exact or_iff_right fun h => by have := hlw h; omega

theorem of_ite {p : Prop} [Decidable p] (h : Ranked a b l) : Ranked a b (if p then l else []) := by
  split
  exacts [h, nil]

end Ranked

/-- Of two works in a list that ascends in rank, the one of lower rank comes first. -/
theorem Ranked.pair_sublist {lo hi : Nat} {ws : List Work} (h : Ranked lo hi ws) {x w : Work}
    (hx : x ∈ ws) (hw : w ∈ ws) (hlt : workRank x < workRank w) : [x, w].Sublist ws := by
  obtain ⟨as, bs, rfl⟩ := List.append_of_mem hx
  have hafter : w ∈ bs := by
    rcases List.mem_append.mp hw with has | hxb
    · have := (List.pairwise_append.mp h.ascends).2.2 w has x (by simp)
      omega
    · rcases List.mem_cons.mp hxb with rfl | hbs
      · omega
      · exact hbs
  exact sublist_right ((List.singleton_sublist.mpr hafter).cons_cons x) as

/-- Every rule of order puts the work of lower rank first. -/
theorem rank_lt_of_mustPrecede {x w : Work} (h : mustPrecede x w = true) : workRank x < workRank w := by
  cases w <;> simp only [mustPrecede, beq_iff_eq, Bool.or_eq_true, Bool.false_eq_true] at h
  case overcurrent | streamNotice | driverNotice | calibrationComplete =>
    cases x <;> simp only [Bool.false_eq_true] at h
    simp only [workRank]
    omega
  case allocate | stale | stopExpiry | snapshot =>
    rcases h with rfl | rfl <;> simp only [workRank] <;> omega
  all_goals
    subst h
    simp only [workRank]
    omega

/-- The works of its link that a link reset must find all done or all to be done have lower ranks. -/
theorem rank_lt_of_mem_resetPeers {k : Link} {p : Work} (h : p ∈ resetPeers k) :
    workRank p < workRank (.linkReset k) := by
  cases k
  case a | b =>
    simp only [resetPeers, List.mem_cons, List.not_mem_nil, or_false] at h
    obtain rfl | rfl | rfl := h <;> decide
  case s => cases h

/-- A list of due works that ascends in rank has the orders of the rules itself. -/
theorem Ranked.inRuleOrder {lo hi : Nat} {ws : List Work} (h : Ranked lo hi ws) : InRuleOrder ws where
  once := h.ascends.imp fun hlt heq => by simp [heq] at hlt
  ruled _ _ hm hx hw := h.pair_sublist hx hw (rank_lt_of_mustPrecede hm)
  reset _ _ hp hd hr := h.pair_sublist hd hr (rank_lt_of_mem_resetPeers hp)

/-! ### The works of the events -/

section
variable (s : State)

theorem slotWorks_ranked {a : Nat} {f : SlotId → Work} (hf : ∀ i, workRank (f i) = a + i.val)
    (p : SlotId → Bool) : Ranked a (a + 32) ((allSlots.filter p).map f) :=
  .map ((List.pairwise_lt_finRange 8).filter p) hf fun i => by omega

theorem allSlotWorks_ranked {a : Nat} {f : SlotId → Work} (hf : ∀ i, workRank (f i) = a + i.val) :
    Ranked a (a + 32) (allSlots.map f) :=
  .map (List.pairwise_lt_finRange 8) hf fun i => by omega

theorem driveWorks_ranked {a : Nat} {f : DriveLink → Work}
    (hf : ∀ d, workRank (f d) = a + (driveIndex d).val) : Ranked a (a + 32) (bothLinks.map f) :=
  .map (by decide) hf fun d => by omega

/-- The works of a cycle event ascend in rank. -/
theorem State.cycleWorks_ranked : Ranked 160 448 s.cycleWorks := by
  have serves : Ranked 160 192
      (if s.mode = .setup ∨ s.mode = .operate then bothLinks.map Work.serve else []) :=
    (driveWorks_ranked fun _ => rfl).of_ite
  have applied : Ranked 192 224 ((allSlots.filter fun i => (s.slot i).hasStaged).map .applyStaged) :=
    slotWorks_ranked (fun _ => rfl) _
  have intakes : Ranked 224 256 (bothLinks.map .intake) := driveWorks_ranked fun _ => rfl
  have stales : Ranked 256 288 (bothLinks.map .stale) := driveWorks_ranked fun _ => rfl
  have steps : Ranked 288 320 [.closeCycle, .allocate, .freshness, .countdown] :=
    ⟨by decide, by decide⟩
  have expiries : Ranked 320 352 (allSlots.map .stopExpiry) := allSlotWorks_ranked fun _ => rfl
  have copies : Ranked 352 384 (allSlots.map .faultCopy) := allSlotWorks_ranked fun _ => rfl
  have snapshots : Ranked 384 416 (bothLinks.map .snapshot) := driveWorks_ranked fun _ => rfl
  have last : Ranked 416 448 [.safetySnapshot] := .singleton
  exact (((((((serves.append applied).append intakes).append stales).append steps).append
    expiries).append copies).append snapshots).append last

/-- The notices of the legs of leg sets, each of which looks at its own condition (R76). -/
def State.noticeWorks (s : State) : List Work :=
  s.seatedLegs.map .overcurrent ++ s.seatedLegs.map .streamNotice ++ s.seatedLegs.map .driverNotice

theorem State.noticeWorks_ranked : Ranked 32 128 s.noticeWorks := by
  have legs {a : Nat} {f : LegId → Work} (hf : ∀ l, workRank (f l) = a + l.val) :
      Ranked a (a + 32) (s.seatedLegs.map f) :=
    .map ((List.pairwise_lt_finRange 24).filter _) hf fun l => by omega
  have overcurrents : Ranked 32 64 (s.seatedLegs.map .overcurrent) := legs fun _ => rfl
  have streams : Ranked 64 96 (s.seatedLegs.map .streamNotice) := legs fun _ => rfl
  have drivers : Ranked 96 128 (s.seatedLegs.map .driverNotice) := legs fun _ => rfl
  exact (overcurrents.append streams).append drivers

variable (p : State) (pins : FastPins)

/-- The cycle event that an accepted rising edge of CYC owes, and nothing without one (R118, R120). -/
def State.edgeWorks (s p : State) : List Work :=
  if p.cyc.level = false ∧ s.cyc.level = true ∧ s.edgeCounts = true then
    .cycleEdge :: .generation false :: s.cycleWorks
  else []

theorem State.edgeWorks_ranked : Ranked 128 448 (s.edgeWorks p) := by
  have head : Ranked 128 160 [.cycleEdge, .generation false] := ⟨by decide, by decide⟩
  exact (head.append s.cycleWorks_ranked).of_ite

/-- The TOFF level that two equal samples accept (R144). -/
def State.toffWorks (p : State) (pins : FastPins) : List Work :=
  if p.safety.toffLast = some pins.toff ∧ p.safety.toffHigh ≠ pins.toff then
    [.toffAccept pins.toff]
  else []

theorem State.toffWorks_ranked : Ranked 1 32 (p.toffWorks pins) :=
  Ranked.of_ite .singleton

/-- The link resets whose counts are full (R173). -/
def State.resetWorks (s : State) : List Work := (allLinks.filter s.linkResetDue).map .linkReset

theorem State.resetWorks_ranked : Ranked 448 480 s.resetWorks :=
  .map (num := fun k => (linkIndex k).val) (List.Pairwise.filter _ (by decide)) (fun _ => rfl)
    fun k => by omega

/-- What a fast sample event leaves, part by part. -/
theorem State.fastWorks_eq :
    s.fastWorks p pins =
      [.legSamples pins.drdy] ++
        (p.toffWorks pins ++ (s.noticeWorks ++ (s.edgeWorks p ++ s.resetWorks))) := by
  have hparts : s.fastWorks p pins =
      [.legSamples pins.drdy] ++ (p.toffWorks pins ++ s.seatedLegs.map .overcurrent ++
        s.seatedLegs.map .streamNotice ++ s.seatedLegs.map .driverNotice ++ s.edgeWorks p ++
        s.resetWorks) := rfl
  simp only [hparts, State.noticeWorks, List.append_assoc]

/-- The works that a fast sample event leaves ascend in rank, and each stands in the part that its rank
belongs to. -/
theorem State.fastWorks_ranked :
    Ranked 0 480 (s.fastWorks p pins) ∧
      ∀ w, w ∈ s.fastWorks p pins ↔
        if workRank w < 1 then w = .legSamples pins.drdy
        else if workRank w < 32 then w ∈ p.toffWorks pins
        else if workRank w < 128 then w ∈ s.noticeWorks
        else if workRank w < 448 then w ∈ s.edgeWorks p
        else w ∈ s.resetWorks := by
  have samples : Ranked 0 1 [.legSamples pins.drdy] := .singleton
  have toff := p.toffWorks_ranked pins
  have notices := s.noticeWorks_ranked
  have edge := s.edgeWorks_ranked p
  have resets := s.resetWorks_ranked
  have edgeOn := edge.append resets
  have noticesOn := notices.append edgeOn
  have toffOn := toff.append noticesOn
  rw [State.fastWorks_eq]
  refine ⟨samples.append toffOn, fun w => ?_⟩
  rw [samples.mem_append_iff toffOn, toff.mem_append_iff noticesOn, notices.mem_append_iff edgeOn,
    edge.mem_append_iff resets, List.mem_singleton]

end

end Sys2Proof.Machine
end


section
/-! SUPPORT. A fast sample event (R76, R77, R79, R117, R144, R173): the lines sampled, and when each of the works
that it leaves is due. -/

namespace Sys2Proof.Machine

variable (s p : State) (pins : FastPins)

/-! ### When each work is due -/

theorem State.cycleEdgeWorks_mem_fastWorks {w : Work}
    (hw : w = .cycleEdge ∨ w = .generation false ∨ w ∈ s.cycleWorks) :
    w ∈ s.fastWorks p pins ↔
      p.cyc.level = false ∧ s.cyc.level = true ∧ s.edgeCounts = true := by
  have hrank : 128 ≤ workRank w ∧ workRank w < 448 := by
    obtain rfl | rfl | hmem := hw
    · decide
    · decide
    · have := s.cycleWorks_ranked.within w hmem
      omega
  rw [(s.fastWorks_ranked p pins).2, if_neg (by omega), if_neg (by omega), if_neg (by omega),
    if_pos hrank.2, State.edgeWorks]
  split
  · next h => simpa [h] using hw
  · next h => simpa using h

theorem State.legSamples_mem_fastWorks : Work.legSamples pins.drdy ∈ s.fastWorks p pins := by
  simp [(s.fastWorks_ranked p pins).2, workRank]

theorem State.toffAccept_mem_fastWorks (high : Bool) :
    Work.toffAccept high ∈ s.fastWorks p pins ↔
      pins.toff = high ∧ p.safety.toffLast = some high ∧ p.safety.toffHigh ≠ high := by
  have htoff : Work.toffAccept high ∈ s.fastWorks p pins ↔ .toffAccept high ∈ p.toffWorks pins := by
    simp [(s.fastWorks_ranked p pins).2, workRank]
  rw [htoff, State.toffWorks]
  split
  · next h =>
    obtain ⟨hlast, hother⟩ := h
    rw [List.mem_singleton, Work.toffAccept.injEq]
    constructor
    · rintro rfl
      exact ⟨rfl, hlast, hother⟩
    · rintro ⟨rfl, -, -⟩
      rfl
  · next h =>
    refine ⟨fun hmem => absurd hmem List.not_mem_nil, ?_⟩
    rintro ⟨rfl, hlast, hother⟩
    exact absurd ⟨hlast, hother⟩ h

theorem State.notices_mem_fastWorks (l : LegId) :
    (Work.overcurrent l ∈ s.fastWorks p pins ↔ (s.slotOfLeg l).isSome = true) ∧
      (Work.streamNotice l ∈ s.fastWorks p pins ↔ (s.slotOfLeg l).isSome = true) ∧
      (Work.driverNotice l ∈ s.fastWorks p pins ↔ (s.slotOfLeg l).isSome = true) := by
  have notice {w : Work} (hlo : 32 ≤ workRank w) (hhi : workRank w < 128) :
      w ∈ s.fastWorks p pins ↔ w ∈ s.noticeWorks := by
    rw [(s.fastWorks_ranked p pins).2, if_neg (by omega), if_neg (by omega), if_pos hhi]
  refine ⟨?_, ?_, ?_⟩
  all_goals
    rw [notice (by simp only [workRank]; omega) (by simp only [workRank]; omega)]
    simp [State.noticeWorks, State.seatedLegs]

theorem State.linkReset_mem_fastWorks (k : Link) :
    Work.linkReset k ∈ s.fastWorks p pins ↔ (s.port k).resetCount = 200 := by
  have hrank : 448 ≤ workRank (.linkReset k) := by simp only [workRank]; omega
  have hall : k ∈ allLinks := by cases k <;> decide
  rw [(s.fastWorks_ranked p pins).2, if_neg (by omega), if_neg (by omega), if_neg (by omega),
    if_neg (by omega)]
  simp [State.resetWorks, State.linkResetDue, Config.linkResetCount, hall]

/-- What is due follows the samples before the event by CYC and TOFF alone. -/
theorem State.fastWorks_congr {q : State} (hcyc : p.cyc = q.cyc) (hsafety : p.safety = q.safety) :
    s.fastWorks p pins = s.fastWorks q pins := by
  simp only [State.fastWorks, hcyc, hsafety]

/-- An accepted edge is a cycle event when it is the first since reset or comes T_CYC/2 or more after the
reference instant (R118). -/
theorem State.edgeCounts_iff :
    s.edgeCounts = true ↔
      s.cyc.firstMade = false ∨ 50 * s.image.tCyc ≤ s.now - s.cyc.refInstant := by
  simp only [State.edgeCounts, Bool.or_eq_true, Bool.not_eq_true', decide_eq_true_eq]
  rfl

/-! ### The lines sampled -/

/-- The level at a link's data line (R173). -/
def dataLine (pins : FastPins) : Link → Bool
  | .a => pins.asdi
  | .b => pins.bsdi
  | .s => pins.ssdi

theorem State.lineSamples_port (k : Link) :
    (s.lineSamples pins).port k = (s.port k).resetStep (dataLine pins k) := by
  have hport : (s.lineSamples pins).port k = ((s.sampleCyc pins).sampleLinks pins).port k := rfl
  have hcyc : ∀ k, (s.sampleCyc pins).port k = s.port k := fun _ => rfl
  rw [hport, State.sampleLinks]
  cases k <;> simp [hcyc, dataLine]

theorem State.lineSamples_cyc :
    (s.lineSamples pins).cyc =
      { s.cyc with
        level := if s.cyc.lastSample = some pins.cyc then pins.cyc else s.cyc.level
        lastSample := some pins.cyc } := rfl

theorem State.lineSamples_safety :
    (s.lineSamples pins).safety = { s.safety with toffLast := some pins.toff } := rfl

@[simp] theorem State.lineSamples_now : (s.lineSamples pins).now = s.now := rfl
@[simp] theorem State.lineSamples_lastFast : (s.lineSamples pins).lastFast = s.lastFast := rfl
@[simp] theorem State.lineSamples_image : (s.lineSamples pins).image = s.image := rfl
@[simp] theorem State.lineSamples_agenda : (s.lineSamples pins).agenda = s.agenda := rfl
@[simp] theorem State.lineSamples_slot (i : SlotId) : (s.lineSamples pins).slot i = s.slot i := rfl

/-- The samples change CYC, TOFF and the links' counts, and nothing else. -/
theorem State.lineSamples_frame :
    { s.lineSamples pins with cyc := s.cyc, safety := s.safety, ports := s.ports } = s := by
  simp only [State.lineSamples, State.sampleToff, State.sampleLinks, State.sampleCyc, State.setPort]

/-- The sampling of the legs, leg by leg (R76, R77, R79). -/
theorem State.sampleLegs_leg (drdy : BitVec 24) (l : LegId) :
    (s.sampleLegs drdy).leg l = (s.leg l).fastSample (s.fastLimits l) (drdy.getLsbD l.val) :=
  s.leg_mapLegs _ l

/-! ### The event -/

/-- The instant of a fast sample event that finds nothing owed: the clock comes there, and notes it. -/
structure State.FastInstant (s p : State) : Prop where
  now : p.now = nextInstant 100 s.lastFast s.now
  lastFast : p.lastFast = p.now
  cyc : p.cyc = s.cyc
  safety : p.safety = s.safety
  image : p.image = s.image
  agenda : p.agenda = []
  ports : p.ports = s.ports
  seats : ∀ i, (p.slot i).seats = (s.slot i).seats
  frame : { p with lastFast := s.lastFast } = s.atCount p.now

variable {s} in
theorem State.atFastSample_of_empty (ha : s.agenda = []) : s.FastInstant s.atFastSample := by
  have hnow := s.atCount_nextInstant_now (p := 100) (by omega) s.lastFast
  have hclock : s.atFastSample =
      { s.atCount (nextInstant 100 s.lastFast s.now) with
        lastFast := (s.atCount (nextInstant 100 s.lastFast s.now)).now } := by
    unfold State.atFastSample
    rw [State.arrive_of_empty ha]
    rfl
  generalize hn : nextInstant 100 s.lastFast s.now = n at hnow hclock
  have hlast : (s.atCount n).lastFast = s.lastFast :=
    (congrArg State.lastFast (s.atCount_frame n) :)
  have hports : (s.atCount n).ports = s.ports := (congrArg State.ports (s.atCount_frame n) :)
  rw [hclock]
  refine ⟨hnow.trans hn.symm, rfl, s.atCount_cyc n, s.atCount_safety n, s.atCount_image n,
    (s.atCount_agenda n).trans ha, hports, fun i => ?_, ?_⟩
  · obtain ⟨b, hb⟩ := s.atCount_slot_mark i n
    exact (congrArg Slot.seats hb :)
  · rw [← hlast]
    exact (congrArg s.atCount hnow :).symm

/-- Settles O8: the lines are sampled before the works are found due, and the due works ascend in rank. -/
theorem fastSampleTakesSamples : Obligations.FastSampleTakesSamples := by
  refine ⟨fun s pins order hm ha => ⟨s.atFastSample.lineSamples pins, ?_⟩,
    fun s drdy => ⟨s.sampleLegs drdy, rfl, fun l => ?_, ?_⟩⟩
  · have hp := State.atFastSample_of_empty ha
    have hevent : s.fastSampleEvent pins order =
        (s.atFastSample.lineSamples pins).post order
          ((s.atFastSample.lineSamples pins).fastWorks s.atFastSample pins) := if_neg hm
    generalize s.atFastSample = p at hp hevent ⊢
    have hframe := p.lineSamples_frame pins
    rw [hp.cyc, hp.safety, hp.ports] at hframe
    have hport : ∀ k, (p.lineSamples pins).port k = (s.port k).resetStep (dataLine pins k) :=
      fun k => (p.lineSamples_port pins k).trans
        (congrArg (fun x => Port.resetStep x[linkIndex k] (dataLine pins k)) hp.ports)
    have hcyc := p.lineSamples_cyc pins
    have hsafety := p.lineSamples_safety pins
    rw [hp.cyc] at hcyc
    rw [hp.safety] at hsafety
    have hslot : ∀ l, (p.lineSamples pins).slotOfLeg l = s.slotOfLeg l := by
      simp only [State.slotOfLeg, State.lineSamples_slot, hp.seats, implies_true]
    have hagenda := (p.lineSamples_agenda pins).trans hp.agenda
    have himage := (p.lineSamples_image pins).trans hp.image
    have hnow := p.lineSamples_now pins
    have hlast := (p.lineSamples_lastFast pins).trans hp.lastFast
    generalize p.lineSamples pins = u at *
    rw [State.post_of_empty hagenda, State.fastWorks_congr _ p pins hp.cyc hp.safety] at hevent
    obtain ⟨hranked, -⟩ := u.fastWorks_ranked s pins
    refine ⟨congrArg _ hevent, fun w => mem_arrange, hranked.inRuleOrder.kept order, fun w hw => ?_,
      u.legSamples_mem_fastWorks s pins, u.toffAccept_mem_fastWorks s pins, fun l => ?_,
      u.linkReset_mem_fastWorks s pins, hnow.trans hp.now, hlast.trans hnow.symm, hcyc, hsafety,
      fun k => ?_, ?_⟩
    · rw [u.cycleEdgeWorks_mem_fastWorks s pins hw, u.edgeCounts_iff, himage, hcyc]
    · rw [← hslot l]
      exact u.notices_mem_fastWorks s pins l
    · rw [hport]
      cases k <;> rfl
    · exact (congrArg (fun x : State => { x with lastFast := s.lastFast }) hframe).trans
        (hp.frame.trans (congrArg s.atCount hnow.symm))
  · rw [s.sampleLegs_leg, State.fastLimits]
    cases s.slotOfLeg l <;> rfl
  · simp only [State.sampleLegs, State.mapLegs]

end Sys2Proof.Machine
end


section
/-! SUPPORT. The allocation of the Budget Allocator (R104 to R111): the target scale, what the tiers of the
second stage grant, and the scale and demand that each participating slot is given. -/

namespace Sys2Proof.Machine

/-! ### The target scale (R110) -/

theorem targetScale_of_served {d g : Nat} (h : d ≤ g) : targetScale d g = 32768 :=
  if_pos (.inr h)

theorem targetScale_of_short {d g : Nat} (h : g < d) : targetScale d g = 32768 * g / d :=
  if_neg (by omega)

/-- Settles O53: a demand is served in full or is short, and 0 falls to one of the two. -/
theorem targetScaleByCase : Obligations.TargetScaleByCase := by
  intro d g
  refine ⟨fun hd => targetScale_of_served (hd ▸ g.zero_le), targetScale_of_served,
    fun _ => targetScale_of_short, fun hg hd => ?_, ?_⟩
  · rw [targetScale_of_short (hg ▸ hd), hg, Nat.mul_zero, Nat.zero_div]
  · rcases Nat.lt_or_ge g d with hshort | hserved
    · rw [targetScale_of_short hshort]
      exact Nat.div_le_of_le_mul (by rw [Nat.mul_comm]; exact Nat.mul_le_mul_right _ hshort.le)
    · rw [targetScale_of_served hserved]

/-! ### One tier (R109) -/

/-- The demand that one tier has still to be given. -/
def tierTotal (xs : List (SlotId × Share)) (tier : Nat) : Nat :=
  (xs.map fun p => p.2.unmet tier).sum

/-- What a slot is granted of `rem` that has to serve `total`: what it wants, or the floor of its part. -/
def partOf (want total rem : Nat) : Nat := if total ≤ rem then want else want * rem / total

/-- A share with an amount added to what was given. -/
def Share.grant (x : Share) (amount : Nat) : Share := { x with given := x.given + amount }

@[simp] theorem Share.grant_given (x : Share) (n : Nat) : (x.grant n).given = x.given + n := rfl
@[simp] theorem Share.grant_tier (x : Share) (n : Nat) : (x.grant n).tier = x.tier := rfl
@[simp] theorem Share.grant_demand (x : Share) (n : Nat) : (x.grant n).demand = x.demand := rfl

@[simp] theorem Share.grant_zero (x : Share) : x.grant 0 = x := rfl

@[simp] theorem partOf_zero (total rem : Nat) : partOf 0 total rem = 0 := by
  simp [partOf]

theorem partOf_le (want total rem : Nat) : partOf want total rem ≤ want := by
  unfold partOf
  split
  · exact le_rfl
  · next h =>
    exact Nat.div_le_of_le_mul (by rw [Nat.mul_comm]; exact Nat.mul_le_mul_right _ (by omega))

/-- A tier that fits takes its total, and one that does not takes all there is: each slot is granted its
part. -/
theorem tierStage_eq (tier : Nat) (xs : List (SlotId × Share)) (rem : Nat) :
    tierStage tier xs rem =
      (xs.map fun p => (p.1, p.2.grant (partOf (p.2.unmet tier) (tierTotal xs tier) rem)),
        rem - tierTotal xs tier) := by
  unfold tierStage partOf tierTotal
  dsimp only
  split
  · rfl
  · next h =>
    rw [Nat.sub_eq_zero_of_le (by omega)]
    rfl

/-- The floors of the parts of a whole do not exceed the whole. -/
theorem sum_parts_mul_le (ws : List Nat) (total rem : Nat) :
    (ws.map fun w => w * rem / total).sum * total ≤ ws.sum * rem := by
  induction ws with
  | nil => simp
  | cons w ws ih =>
    simp only [List.map_cons, List.sum_cons, Nat.add_mul]
    exact Nat.add_le_add (Nat.div_mul_le_self _ _) ih

/-- A tier grants no more than it takes of what remains. -/
theorem sum_partOf_le (ws : List Nat) (rem : Nat) :
    (ws.map fun w => partOf w ws.sum rem).sum ≤ rem - (rem - ws.sum) := by
  unfold partOf
  rcases Nat.lt_or_ge rem ws.sum with h | h
  · simp only [if_neg (Nat.not_le.mpr h)]
    have hparts := sum_parts_mul_le ws ws.sum rem
    rw [Nat.mul_comm ws.sum rem] at hparts
    have := Nat.le_of_mul_le_mul_right hparts (by omega)
    omega
  · simp only [if_pos h, List.map_id']
    omega

/-- What was given and what remains are together no more after a tier than before it. -/
theorem tierStage_sum_le (tier : Nat) (xs : List (SlotId × Share)) (rem : Nat) :
    ((tierStage tier xs rem).1.map fun p => p.2.given).sum + (tierStage tier xs rem).2 ≤
      (xs.map fun p => p.2.given).sum + rem := by
  have hparts := sum_partOf_le (xs.map fun p => p.2.unmet tier) rem
  rw [List.map_map] at hparts
  rw [tierStage_eq]
  simp only [List.map_map, Function.comp_def, Share.grant_given, List.sum_map_add]
  unfold tierTotal
  simp only [Function.comp_def] at hparts
  omega

/-! ### The tiers in a row (R109) -/

/-- What remains before a tier, the tiers below it having been served in order. -/
def remaining (xs : List (SlotId × Share)) (rest : Nat) : Nat → Nat
  | 0 => rest
  | tier + 1 => remaining xs rest tier - tierTotal xs tier

/-- What the tiers below `n` have granted a share. -/
def granted (xs : List (SlotId × Share)) (rest n : Nat) (x : Share) : Nat :=
  if x.tier < n then
    partOf (x.demand - x.given) (tierTotal xs x.tier) (remaining xs rest x.tier)
  else 0

theorem remaining_antitone (xs : List (SlotId × Share)) (rest : Nat) :
    Antitone (remaining xs rest) :=
  antitone_nat_of_succ_le fun _ => Nat.sub_le _ _

/-- The tiers below one that finds something were served in full. -/
theorem tierTotal_le_of_remaining {xs : List (SlotId × Share)} {rest t u : Nat} (h : t < u)
    (hu : 0 < remaining xs rest u) : tierTotal xs t ≤ remaining xs rest t := by
  have hle := remaining_antitone xs rest (Nat.succ_le_of_lt h)
  have hstep : remaining xs rest (t + 1) = remaining xs rest t - tierTotal xs t := rfl
  simp only [Nat.succ_eq_add_one] at hle
  omega

/-- A tier that has not been served yet lacks what it lacked before. -/
theorem unmet_grant_granted (xs : List (SlotId × Share)) (rest n : Nat) (x : Share) :
    (x.grant (granted xs rest n x)).unmet n = x.unmet n := by
  unfold Share.unmet granted
  by_cases h : x.tier = n <;> simp [h]

/-- Serving tier `n` after those below it grants what the tiers up to `n` grant. -/
theorem grant_granted_succ (xs : List (SlotId × Share)) (rest n : Nat) (x : Share) :
    (x.grant (granted xs rest n x)).grant
        (partOf (x.unmet n) (tierTotal xs n) (remaining xs rest n)) =
      x.grant (granted xs rest (n + 1) x) := by
  unfold Share.unmet granted
  rcases Nat.lt_trichotomy x.tier n with h | rfl | h
  · simp [h, h.ne, Nat.lt_succ_of_lt h]
  · simp
  · simp [h.ne', Nat.not_lt_of_gt h, Nat.not_lt_of_ge (Nat.succ_le_of_lt h)]

/-- The first `n` tiers in order: what each share was granted, and what remains. -/
theorem foldl_tierStage (xs : List (SlotId × Share)) (rest n : Nat) :
    (List.range n).foldl (fun p tier => tierStage tier p.1 p.2) (xs, rest) =
      (xs.map fun p => (p.1, p.2.grant (granted xs rest n p.2)), remaining xs rest n) := by
  induction n with
  | zero => simp [granted, remaining]
  | succ n ih =>
    have htotal : tierTotal (xs.map fun p => (p.1, p.2.grant (granted xs rest n p.2))) n =
        tierTotal xs n := by
      simp only [tierTotal, List.map_map, Function.comp_def, unmet_grant_granted]
    rw [List.range_succ, List.foldl_append, ih, List.foldl_cons, List.foldl_nil, tierStage_eq, htotal]
    simp only [List.map_map, Function.comp_def, unmet_grant_granted, grant_granted_succ]
    rfl

/-- The second stage grants each share what the four tiers grant it. -/
theorem secondStage_eq (xs : List (SlotId × Share)) (rest : Nat) :
    secondStage xs rest = xs.map fun p => (p.1, p.2.grant (granted xs rest 4 p.2)) :=
  congrArg Prod.fst (foldl_tierStage xs rest 4)

theorem secondStage_sum_le (xs : List (SlotId × Share)) (rest : Nat) :
    ((secondStage xs rest).map fun p => p.2.given).sum ≤ (xs.map fun p => p.2.given).sum + rest := by
  have hfold : ∀ (tiers : List Nat) (p : List (SlotId × Share) × Nat),
      let q := tiers.foldl (fun p tier => tierStage tier p.1 p.2) p
      (q.1.map fun x => x.2.given).sum + q.2 ≤ (p.1.map fun x => x.2.given).sum + p.2 := by
    intro tiers
    induction tiers with
    | nil => exact fun p => le_rfl
    | cons tier tiers ih => exact fun p => (ih _).trans (tierStage_sum_le tier p.1 p.2)
  exact (Nat.le_add_right _ _).trans (hfold [0, 1, 2, 3] (xs, rest))

theorem granted_le (xs : List (SlotId × Share)) (rest n : Nat) (x : Share) :
    granted xs rest n x ≤ x.demand - x.given := by
  unfold granted
  split
  · exact partOf_le _ _ _
  · exact Nat.zero_le _

/-- There is no tier above 3 (R109). -/
theorem granted_all (xs : List (SlotId × Share)) (rest : Nat) (x : Share) :
    granted xs rest 4 x =
      if 3 < x.tier then 0
      else partOf (x.demand - x.given) (tierTotal xs x.tier) (remaining xs rest x.tier) := by
  unfold granted
  split
  · rw [if_neg (by omega)]
  · rw [if_pos (by omega)]

/-- Settles O54: the four tiers in a row grant each share its part of what remains before its tier, and no
tier grants more than it takes. -/
theorem sharesWithinAvailable : Obligations.SharesWithinAvailable := by
  intro xs available rest ys
  have hys : ys = _ := secondStage_eq xs rest
  refine ⟨⟨remaining xs rest, rfl, fun _ => rfl, fun t u h hu => tierTotal_le_of_remaining h hu, ?_⟩,
    fun hwithin hfits => ⟨fun p hp => ?_, ?_⟩⟩
  · rw [hys]
    simp only [granted_all]
    rfl
  · rw [hys] at hp
    obtain ⟨q, hq, rfl⟩ := List.mem_map.mp hp
    have hle := granted_le xs rest 4 q.2
    have := hwithin q hq
    simp only [Share.grant_given, Share.grant_demand]
    omega
  · have hsum : (ys.map fun p => p.2.given).sum ≤ _ := secondStage_sum_le xs rest
    exact hsum.trans (Nat.add_sub_cancel' hfits).le

/-! ### The allocation (R104, R111) -/

variable (s : State) (i : SlotId)

/-- The record of a slot after an allocation that gave it share `x` (R111). -/
def Slot.allocated (y : Slot) (kRise : Nat) (x : Share) : Slot :=
  { y with
    demand := x.demand
    kScale := nextScale (targetScale x.demand x.given) x.k kRise }

/-- The shares put into the slots' records, one after another (R111). -/
def State.putShares (s : State) (kRise : Nat) (xs : List (SlotId × Share)) : State :=
  xs.foldl (fun t p => t.setSlot p.1 ((t.slot p.1).allocated kRise p.2)) s

theorem State.allocate_of_operate {s : State} (h : s.mode = .operate) :
    s.allocate = s.putShares s.image.kRise s.shares :=
  if_pos h

theorem State.putShares_frame (kRise : Nat) (xs : List (SlotId × Share)) :
    { s.putShares kRise xs with slots := s.slots } = s := by
  induction xs generalizing s with
  | nil => rfl
  | cons p xs ih =>
    exact (congrArg (fun x : State => { x with slots := s.slots }) (ih (s.setSlot p.1 _)) :)

theorem State.putShares_slot_of_not_mem (kRise : Nat) {xs : List (SlotId × Share)}
    (h : i ∉ xs.map Prod.fst) : (s.putShares kRise xs).slot i = s.slot i := by
  induction xs generalizing s with
  | nil => rfl
  | cons p xs ih =>
    obtain ⟨hne, hrest⟩ := not_or.mp (mt List.mem_cons.mpr h)
    exact (ih _ hrest).trans (by rw [State.slot_setSlot, if_neg (Ne.symm hne)])

/-- A slot that has one share takes it. -/
theorem State.putShares_slot_of_mem (kRise : Nat) {xs : List (SlotId × Share)} {x : Share}
    (hnodup : (xs.map Prod.fst).Nodup) (hx : (i, x) ∈ xs) :
    (s.putShares kRise xs).slot i = (s.slot i).allocated kRise x := by
  induction xs generalizing s with
  | nil => cases hx
  | cons p xs ih =>
    obtain ⟨hp, hxs⟩ := List.nodup_cons.mp hnodup
    change ((s.setSlot p.1 ((s.slot p.1).allocated kRise p.2)).putShares kRise xs).slot i = _
    rcases List.mem_cons.mp hx with rfl | hx
    · rw [State.putShares_slot_of_not_mem _ _ _ hp, State.slot_setSlot, if_pos rfl]
    · have hne : p.1 ≠ i := fun e => hp (e ▸ List.mem_map_of_mem (f := Prod.fst) hx)
      rw [ih _ hxs hx, State.slot_setSlot, if_neg hne]

/-! ### The participants' shares -/

theorem State.mem_participants : i ∈ s.participants ↔ (s.slot i).state.isRunning = true := by
  simp [State.participants]

/-- One share for each participating slot, in order (R104). -/
theorem State.shares_slots : s.shares.map Prod.fst = s.participants := by
  simp [State.shares, secondStage_eq, State.firstShares, Function.comp_def]

theorem State.shares_nodup : (s.shares.map Prod.fst).Nodup := by
  rw [s.shares_slots]
  exact (List.nodup_finRange 8).filter _

variable {s i} in
/-- A share carries its slot's new demand and its scale before the allocation (R106, R111). -/
theorem State.demand_k_of_mem_shares {x : Share} (h : (i, x) ∈ s.shares) :
    x.demand = s.newDemand i ∧ x.k = (s.slot i).kScale := by
  rw [State.shares, secondStage_eq] at h
  simp only [State.firstShares, List.mem_map] at h
  obtain ⟨_, ⟨j, -, rfl⟩, hp⟩ := h
  cases hp
  exact ⟨rfl, rfl⟩

/-- Settles O55: each participating slot has one share, which carries its demand and its scale before. -/
theorem allocationMovesScales : Obligations.AllocationMovesScales := by
  intro s hm
  have ht : perform .allocate s = _ := State.allocate_of_operate hm
  rw [ht]
  refine ⟨rfl, fun i hi => ⟨?_, fun share hshare => ?_⟩, fun i hi => ?_, s.putShares_frame _ _⟩
  · have hmem : i ∈ s.shares.map Prod.fst := s.shares_slots ▸ (s.mem_participants i).mpr hi
    obtain ⟨⟨_, share⟩, hshare, rfl⟩ := List.mem_map.mp hmem
    exact ⟨share, hshare⟩
  · obtain ⟨hdemand, hk⟩ := State.demand_k_of_mem_shares hshare
    rw [s.putShares_slot_of_mem i _ s.shares_nodup hshare, Slot.allocated, hdemand, hk]
    rfl
  · refine s.putShares_slot_of_not_mem i _ fun hmem => ?_
    rw [s.shares_slots, s.mem_participants, hi] at hmem
    cases hmem

end Sys2Proof.Machine
end


section
/-! SUPPORT. A served request's answer put into the response field (R169), and RESERVE (R101, R102). -/

namespace Sys2Proof.Machine

theorem natWord_toNat (w : Word) : natWord w.toNat = w := BitVec.eq_of_toNat_eq (by simp [natWord])

/-- What a block did with request `r`, and its answer in link `d`'s response field (R169). -/
def answered (d : DriveLink) (r : Request) (out : State × Answer) : State :=
  out.1.respond d r out.2.code out.2.value1 out.2.value2

/-- An answer in numbers stands in the response field in words. -/
theorem answered_answer (d : DriveLink) (r : Request) (s : State) (c : ResultCode) (v1 v2 : Int) :
    answered d r (s, answer c v1 v2) = s.respond d r c (toWord v1) (toWord v2) := rfl

/-- A request at the head of its queue, served by `f`, is answered (R169). -/
theorem State.Serves.serveWith {s : State} {d : DriveLink} {r : Request} {rest : List Request}
    {ws : List Work} (h : s.Serves d r rest ws) (f : DriveLink → Request → State → State × Answer) :
    s.serveWith d f = answered d r (f d r (s.dequeued d rest)) :=
  State.serveWith_eq_respond h.queue f

/-- Settles O39: the checks of R101 come in the statement's order, and each answer is the same in words. -/
theorem reserveAnswers : Obligations.ReserveAnswers := by
  intro s d r rest ws hs hk u
  have hkind : Kind.ofCode r.kind = .reserve := by rw [hk]; rfl
  have hserved : exec (.reserve d) s = State.thenWorks (answered d r (doReserve d r u)) ws := by
    rw [← hs.serveWith]
    exact congrArg Host.Outcome.next (State.takeServed_front hs hkind _)
  rw [hserved]
  refine congrArg (State.thenWorks · ws) ?_
  unfold doReserve
  rw [apply_dite (answered d r)]
  refine dite_congr rfl (fun htarget => ?_) fun _ => rfl
  simp only [apply_ite (answered d r), answered_answer, toWord_natCast, natWord_toNat]
  rfl

end Sys2Proof.Machine
end


section
/-! SUPPORT. The work of a V_dc sample event (R67, R92 to R98): what the one sample forms, the chopper legs
that follow it, and the notices to every slot while a condition holds. -/

namespace Sys2Proof.Machine

variable (s : State) (i : SlotId) (l : LegId)

/-! ### The sample and the chopper legs (R67, R92 to R98) -/

theorem Leg.followChopper_eq (x : Leg) (dt now : Nat) (on : Bool) :
    x.followChopper dt now on =
      if on then { x.setTarget dt now .high with drive := .high } else x.turnOff := by
  cases on <;> rfl

/-- A leg at a V_dc sample event (R67). -/
def State.vdcLeg (s : State) (l : LegId) (x : Leg) : Leg :=
  if x.func = LegFunc.chopper ∧ s.dc.chopper ≠ s.sampleDc.chopper then
    x.followChopper (s.deadTime l) s.now s.sampleDc.chopper
  else x

/-- The sample formed, the chopper legs moved, and DC_UV and DC_OV set while they hold. -/
def State.readVdc (s : State) : State :=
  ((({ s with dc := s.sampleDc }).mapLegs s.vdcLeg).setFlagIf s.sampleDc.uv .dcUv).setFlagIf
    s.sampleDc.ov .dcOv

theorem State.setFlagIf_eq (b : Bool) (f : Flag) :
    s.setFlagIf b f = { s with globalSet := s.globalSet ||| (if b then f.bit else 0#16) } := by
  cases b <;> simp [State.setFlagIf, State.setFlag]

/-- The sample changes the monitor, the legs and the global set. -/
theorem State.readVdc_eq :
    s.readVdc =
      { s.mapLegs s.vdcLeg with
        dc := s.sampleDc
        globalSet := s.globalSet ||| (if s.sampleDc.uv then 0x0002#16 else 0#16) |||
          (if s.sampleDc.ov then 0x0004#16 else 0#16) } := by
  simp only [State.readVdc, State.setFlagIf_eq, State.mapLegs]
  rfl

@[simp] theorem State.setFlagIf_leg (b : Bool) (f : Flag) : (s.setFlagIf b f).leg l = s.leg l := by
  cases b <;> rfl

@[simp] theorem State.readVdc_leg : s.readVdc.leg l = s.vdcLeg l (s.leg l) := by
  simp only [State.readVdc, State.setFlagIf_leg, State.leg_mapLegs]
  rfl

@[simp] theorem State.readVdc_slot : s.readVdc.slot i = s.slot i := by
  simp only [State.readVdc, State.setFlagIf_slot, State.mapLegs_slot]
  rfl

/-! ### The notices (R94, R96) -/

/-- Notices of one cause to every slot, while its condition holds. -/
def State.noticesIf (s : State) (b : Bool) (order : List SlotId) (c : Cause) : State :=
  if b then s.takeNotices (slotsInOrder order) c else s

/-- The notices of a V_dc sample event, those of the undervoltage first (log 20). -/
def State.dcNotices (s : State) (uv ov : Bool) (order : List SlotId) : State :=
  (s.noticesIf uv order .dcUndervoltage).noticesIf ov order .dcOvervoltage

theorem State.vdcEvent_eq (order : List SlotId) :
    s.vdcEvent order = s.readVdc.dcNotices s.sampleDc.uv s.sampleDc.ov order :=
  rfl

variable (b : Bool) (order : List SlotId) (c : Cause)

theorem State.noticesIf_sameRest : s.SameRest (s.noticesIf b order c) := by
  cases b
  · exact State.SameRest.refl s
  · exact s.takeNotices_sameRest c _

variable {i} in
theorem State.noticesIf_slot_of_not_active (h : (s.slot i).state.isActive = false) :
    (s.noticesIf b order c).slot i = s.slot i := by
  cases b
  · rfl
  · exact s.takeNotices_of_not_active i c _ h

/-- No active slot has the leg in its leg set. -/
def State.Unheld (s : State) (l : LegId) : Prop :=
  ∀ k, (s.slot k).state.isActive = true → (s.slot k).holds l = false

variable {s l} in
/-- A leg of no active slot is left alone by notices, and stays one of no active slot (R64). -/
theorem State.Unheld.noticesIf (h : s.Unheld l) :
    (s.noticesIf b order c).leg l = s.leg l ∧ (s.noticesIf b order c).Unheld l := by
  cases b
  · exact ⟨rfl, h⟩
  · refine ⟨(s.takeNotices_legs l c _).2 fun k hk => h k hk.1, fun k hk => ?_⟩
    change ((s.takeNotices (slotsInOrder order) c).slot k).state.isActive = true at hk
    change ((s.takeNotices (slotsInOrder order) c).slot k).holds l = false
    rcases s.takeNotices_slot_or k c (slotsInOrder order) with heq | ⟨-, c', leg', heq⟩ <;>
      rw [heq] at hk ⊢
    · exact h k hk
    · cases hk

/-- Notices to every slot leave none active (R16). -/
theorem State.takeNotices_all_not_active :
    ((s.takeNotices (slotsInOrder order) c).slot i).state.isActive = false := by
  rcases Bool.eq_false_or_eq_true (s.slot i).state.isActive with ha | ha
  · rw [s.takeNotices_fault i c _ (mem_slotsInOrder i order) ha]
    rfl
  · rw [s.takeNotices_of_not_active i c _ ha, ha]

variable {s} in
/-- With no slot active, notices change nothing (R16). -/
theorem State.takeNotices_of_none_active (h : ∀ i, (s.slot i).state.isActive = false)
    (is : List SlotId) : s.takeNotices is c = s := by
  induction is with
  | nil => rfl
  | cons i is ih =>
    change (s.takeNotice i c none).takeNotices is c = s
    rw [s.takeNotice_of_not_active i c none (h i), ih]

variable {s} in
theorem State.noticesIf_of_none_active (h : ∀ i, (s.slot i).state.isActive = false) :
    s.noticesIf b order c = s := by
  cases b
  · rfl
  · exact State.takeNotices_of_none_active c h _

theorem State.takeNotices_all_noticed :
    s.Noticed c (fun _ => True) (s.takeNotices (slotsInOrder order) c) :=
  s.takeNotices_noticed c fun i => iff_of_true trivial (mem_slotsInOrder i order)

section
variable (uv ov : Bool)

theorem State.dcNotices_sameRest : s.SameRest (s.dcNotices uv ov order) :=
  (s.noticesIf_sameRest uv order .dcUndervoltage).trans (State.noticesIf_sameRest _ ov order _)

/-- A slot that is not active stays as it is, and so does every slot while neither condition holds. -/
theorem State.dcNotices_slot (h : (s.slot i).state.isActive = false ∨ uv = false ∧ ov = false) :
    (s.dcNotices uv ov order).slot i = s.slot i := by
  rcases h with h | ⟨rfl, rfl⟩
  · have hfirst := s.noticesIf_slot_of_not_active uv order .dcUndervoltage h
    exact (State.noticesIf_slot_of_not_active _ ov order _ (by rw [hfirst]; exact h)).trans hfirst
  · rfl

variable {s l} in
theorem State.Unheld.dcNotices (h : s.Unheld l) : (s.dcNotices uv ov order).leg l = s.leg l := by
  obtain ⟨hleg, hunheld⟩ := h.noticesIf uv order .dcUndervoltage
  exact (hunheld.noticesIf ov order .dcOvervoltage).1.trans hleg

/-- Every active slot is faulted under the condition that holds, and under undervoltage when both do
(log 20). -/
theorem State.dcNotices_noticed :
    (uv = true → s.Noticed .dcUndervoltage (fun _ => True) (s.dcNotices uv ov order)) ∧
      (uv = false → ov = true →
        s.Noticed .dcOvervoltage (fun _ => True) (s.dcNotices uv ov order)) := by
  refine ⟨?_, ?_⟩
  · rintro rfl
    have hnone : ∀ i, ((s.noticesIf true order .dcUndervoltage).slot i).state.isActive = false :=
      fun i => s.takeNotices_all_not_active i order .dcUndervoltage
    rw [State.dcNotices, State.noticesIf_of_none_active ov order .dcOvervoltage hnone]
    exact s.takeNotices_all_noticed order .dcUndervoltage
  · rintro rfl rfl
    exact s.takeNotices_all_noticed order .dcOvervoltage

end

/-! ### The event -/

/-- The state in which a V_dc sample event at count `n`, with nothing owed before it, sends its notices. -/
def State.vdcSampled (s : State) (n : Nat) : State :=
  { s.atCount n with lastVdc := (s.atCount n).now }.readVdc

section
variable (n : Nat)

theorem State.sampleDc_atCount :
    State.sampleDc { s.atCount n with lastVdc := (s.atCount n).now } = s.sampleDc := by
  simp only [State.sampleDc, State.atCount_dc, State.atCount_image]

theorem State.vdcSampled_slot : (s.vdcSampled n).slot i = (s.atCount n).slot i := State.readVdc_slot _ i

theorem State.vdcSampled_dc : (s.vdcSampled n).dc = s.sampleDc := by
  rw [State.vdcSampled, State.readVdc_eq, State.sampleDc_atCount]

/-- A chopper leg follows a change of the chopper state (R67). -/
theorem State.vdcSampled_leg (h : (s.leg l).func = .chopper) :
    (s.vdcSampled n).leg l =
      if s.dc.chopper = s.sampleDc.chopper then s.leg l
      else if s.sampleDc.chopper then
        { (s.leg l).setTarget (s.image.dt (groupOf l)) (s.atCount n).now .high with drive := .high }
      else (s.leg l).turnOff := by
  have hleg : State.leg { s.atCount n with lastVdc := (s.atCount n).now } l = s.leg l :=
    s.atCount_leg n l
  rw [State.vdcSampled, State.readVdc_leg, hleg, State.vdcLeg, s.sampleDc_atCount n,
    Leg.followChopper_eq]
  simp only [State.atCount_dc, State.deadTime, State.atCount_image, h, true_and, ne_eq, ite_not]

theorem State.vdcSampled_globalSet :
    (s.vdcSampled n).globalSet = s.globalSet ||| (if s.sampleDc.uv then 0x0002#16 else 0#16) |||
      (if s.sampleDc.ov then 0x0004#16 else 0#16) := by
  have hset : (s.atCount n).globalSet = s.globalSet := (congrArg State.globalSet (s.atCount_frame n) :)
  rw [State.vdcSampled, State.readVdc_eq, State.sampleDc_atCount, hset]

theorem State.vdcSampled_rest :
    (s.vdcSampled n).now = (s.atCount n).now ∧ (s.vdcSampled n).lastVdc = (s.atCount n).now ∧
      (s.vdcSampled n).image = s.image ∧ (s.vdcSampled n).safety = s.safety ∧
      (s.vdcSampled n).cyc = s.cyc ∧ (s.vdcSampled n).drives = s.drives ∧
      (s.vdcSampled n).mode = s.mode := by
  have hdrives : (s.atCount n).drives = s.drives := (congrArg State.drives (s.atCount_frame n) :)
  simp only [State.vdcSampled, State.readVdc_eq, State.mapLegs, State.atCount_image,
    State.atCount_safety, State.atCount_cyc, State.atCount_mode, hdrives, and_self]

end

variable {s} in
/-- A V_dc sample event that finds nothing owed: the clock comes to its instant, the sample is formed, and
the notices of the undervoltage come before those of the overvoltage (log 20). -/
theorem State.vDcSampleEvent_of_empty (hm : s.mode ≠ .reset) (ha : s.agenda = []) :
    s.vDcSampleEvent order =
      (s.vdcSampled (nextInstant 2000 s.lastVdc s.now)).dcNotices s.sampleDc.uv s.sampleDc.ov order := by
  unfold State.vDcSampleEvent State.atVdcSample
  rw [if_neg hm, State.arrive_of_empty ha, State.vdcEvent_eq]
  simp only [State.sampleDc_atCount]
  rfl

theorem Slot.holds_eq_false {x : Slot} {l : LegId} (h : x.seats.all (fun q => q.leg ≠ l) = true) :
    x.holds l = false := by
  simpa [Slot.holds] using h

/-- Settles O20: the sample gives the monitor, the flags and the chopper legs; the notices go to every
slot, and those of the overvoltage find no slot active after those of the undervoltage. -/
theorem vdcSampleActs : Obligations.VdcSampleActs := by
  intro s order hm ha volt
  have he := State.vDcSampleEvent_of_empty order hm ha
  have hn : (s.atCount (nextInstant 2000 s.lastVdc s.now)).now = _ :=
    s.atCount_nextInstant_now (by omega) s.lastVdc
  generalize nextInstant 2000 s.lastVdc s.now = n at he hn ⊢
  obtain ⟨hnow, hlast, himage, hsafety, hcyc, hdrives, hmode⟩ := s.vdcSampled_rest n
  have hslot := fun i => s.vdcSampled_slot i n
  have hleg := fun l => s.vdcSampled_leg l n
  have hdc := s.vdcSampled_dc n
  have hset := s.vdcSampled_globalSet n
  generalize s.vdcSampled n = v at *
  have huv : s.sampleDc.uv = decide (volt < s.image.vUv) := rfl
  have hov : s.sampleDc.ov = decide (s.image.vOv < volt) := rfl
  have hmark : ∀ i, ∃ b, v.slot i = { s.slot i with stopLoaded := b } := fun i =>
    hslot i ▸ s.atCount_slot_mark i n
  have hrest := v.dcNotices_sameRest order s.sampleDc.uv s.sampleDc.ov
  have hkept := fun i => v.dcNotices_slot i order s.sampleDc.uv s.sampleDc.ov
  have hunheld := fun l (hl : v.Unheld l) => hl.dcNotices order s.sampleDc.uv s.sampleDc.ov
  obtain ⟨hunder, hover⟩ := v.dcNotices_noticed order s.sampleDc.uv s.sampleDc.ov
  generalize v.dcNotices s.sampleDc.uv s.sampleDc.ov order = t at *
  have htnow : t.now = n := hrest.now.trans (hnow.trans hn)
  have htdc : t.dc = s.sampleDc := hrest.dc.trans hdc
  refine ⟨t, congrArg _ he, htnow, ?_, htdc, ?_, fun h => ?_, fun hle h => ?_, fun i hi => ?_,
    fun l hl hfree => ?_, hrest.safety.trans hsafety, hrest.cyc.trans hcyc,
    hrest.drives.trans hdrives, hrest.mode.trans hmode, hrest.image.trans himage⟩
  · rw [htnow, hrest.lastVdc, hlast, hn]
  · rw [hrest.globalSet, hset, huv, hov]
    simp only [decide_eq_true_eq]
  · exact (hunder (by rw [huv]; exact decide_eq_true h)).of_marks hmark hcyc
  · exact (hover (by rw [huv]; exact decide_eq_false (Nat.not_lt.mpr hle))
      (by rw [hov]; exact decide_eq_true h)).of_marks hmark hcyc
  · obtain ⟨b, hb⟩ := hmark i
    have hsame : t.slot i = { s.slot i with stopLoaded := b } := by
      rw [← hb]
      refine hkept i (hi.imp (fun hoff => by rw [hb]; exact hoff) fun hnone => ?_)
      rw [huv, hov]
      simpa only [not_or, decide_eq_false_iff_not] using hnone
    rw [hsame]
    exact ⟨rfl, rfl, rfl, rfl⟩
  · have hv : v.Unheld l := fun k hk => by
      obtain ⟨b, hb⟩ := hmark k
      rw [hb] at hk ⊢
      exact Slot.holds_eq_false (hfree k hk)
    rw [hunheld l hv, hleg l hl, htdc, htnow, hn]

end Sys2Proof.Machine
end


section
/-! SUPPORT. The works of a cycle event (R118 to R120): which they are, at an accepted edge and at an event
that the part makes itself, and in what order they come. -/

namespace Sys2Proof.Machine

variable (s : State)

/-! ### An accepted edge (R118, R120) -/

/-- Generation starts or ends beside the works of a cycle event, and is none of them (R119, R120). -/
theorem State.generation_not_mem_cycleWorks (active : Bool) :
    Work.generation active ∉ s.cycleWorks := fun h => by
  have hlow : 160 ≤ 129 := (s.cycleWorks_ranked.within _ h).1
  omega

/-- No edge starts generation (R120). -/
theorem State.generationStart_not_mem_fastWorks (p : State) (pins : FastPins) :
    Work.generation true ∉ s.fastWorks p pins := by
  have hedge : Work.generation true ∈ s.fastWorks p pins ↔ .generation true ∈ s.edgeWorks p := by
    simp [(s.fastWorks_ranked p pins).2, workRank]
  rw [hedge, State.edgeWorks]
  split
  · simp [s.generation_not_mem_cycleWorks]
  · exact List.not_mem_nil

/-- Settles O9: the works of an edge stand or fall together, and the due works ascend in rank. -/
theorem edgeOwesCycleEvent : Obligations.EdgeOwesCycleEvent := by
  intro s p pins counts
  have hcounts {w : Work} (hw : w = .cycleEdge ∨ w = .generation false ∨ w ∈ s.cycleWorks) :
      w ∈ s.fastWorks p pins ↔ counts := by
    rw [s.cycleEdgeWorks_mem_fastWorks p pins hw, s.edgeCounts_iff]
  obtain ⟨hranked, -⟩ := s.fastWorks_ranked p pins
  exact ⟨hcounts (.inl rfl), hcounts (.inr (.inl rfl)), s.generationStart_not_mem_fastWorks p pins,
    fun w hw => hcounts (.inr (.inr hw)), hranked.inRuleOrder.kept⟩

/-! ### The works of a cycle event -/

@[simp] theorem mem_bothLinks (d : DriveLink) : d ∈ bothLinks := by cases d <;> decide

/-- A slot has a value waiting at one of its items 0 to 6 (R22). -/
theorem Slot.hasStaged_iff (x : Slot) : x.hasStaged = true ↔ ∃ j : Fin 7, x.staged[j] ≠ none := by
  simp only [Slot.hasStaged, List.any_eq_true, Vector.mem_toList_iff, Vector.mem_iff_getElem,
    Option.isSome_iff_ne_none]
  constructor
  · rintro ⟨_, ⟨j, hj, rfl⟩, hsome⟩
    exact ⟨⟨j, hj⟩, hsome⟩
  · rintro ⟨j, hsome⟩
    exact ⟨_, ⟨j.val, j.isLt, rfl⟩, hsome⟩

/-- Each kind of work stands in one part of the works of a cycle event, or in none. -/
theorem State.mem_cycleWorks (w : Work) :
    w ∈ s.cycleWorks ↔
      (∃ d, w = .serve d ∧ (s.mode = .setup ∨ s.mode = .operate)) ∨
      (∃ i, w = .applyStaged i ∧ ∃ j : Fin 7, (s.slot i).staged[j] ≠ none) ∨
      (∃ d, w = .intake d ∨ w = .stale d ∨ w = .snapshot d) ∨
      (∃ i, w = .stopExpiry i ∨ w = .faultCopy i) ∨
      w ∈ [Work.closeCycle, .allocate, .freshness, .countdown, .safetySnapshot] := by
  cases w <;>
    simp [State.cycleWorks, Slot.hasStaged_iff, and_comm, List.mem_ite_nil_right]

/-- A value is owed its writing by the slot that has it alone (R22). -/
theorem State.applyStaged_mem_cycleWorks (i : SlotId) :
    Work.applyStaged i ∈ s.cycleWorks ↔ ∃ j : Fin 7, (s.slot i).staged[j] ≠ none := by
  simp [s.mem_cycleWorks]

/-! ### Cycle events the part makes itself (R119) -/

/-- The start of generation and the works of a cycle event ascend in rank. -/
theorem State.lossWorks_ranked : Ranked 128 448 (.generation true :: s.cycleWorks) :=
  (Ranked.singleton : Ranked 128 160 [.generation true]).append s.cycleWorks_ranked

/-- The part's own cycle event at count `n`, with nothing owed before it: the clock comes there, and the event
is numbered (R118). -/
def State.ownCycle (s : State) (n : Nat) : State :=
  { s.atCount n with
    cyc :=
      { s.cyc with number := s.cyc.number + 1, refInstant := (s.atCount n).now, firstMade := true } }

theorem State.numberCycle_atCount (n : Nat) : (s.atCount n).numberCycle = s.ownCycle n := by
  simp only [State.numberCycle, State.ownCycle, State.atCount_cyc]

variable {s} in
/-- An own cycle event that finds nothing owed leaves its works in the order asked for. -/
theorem State.post_ownCycle (ha : s.agenda = []) (n : Nat) (order due : List Work) :
    (s.ownCycle n).post order due = runWorks (arrange order due) (s.ownCycle n) :=
  State.post_of_empty (s := s.ownCycle n) ((s.atCount_agenda n).trans ha) order due

variable {s} in
theorem State.cycLossTimeout_of_empty (hm : s.mode ≠ .reset) (ha : s.agenda = [])
    (hg : s.cyc.genActive = false) (order : List Work) :
    let u := s.ownCycle (s.cyc.refInstant + 150 * s.image.tCyc)
    s.cycLossTimeout order = runWorks (arrange order (.generation true :: u.cycleWorks)) u := by
  unfold State.cycLossTimeout
  rw [State.settle_of_empty ha, if_pos ⟨hm, hg⟩]
  dsimp only
  rw [State.arrive_of_empty ha, s.numberCycle_atCount, State.post_ownCycle ha]
  rfl

variable {s} in
theorem State.internalCycleEvent_of_empty (hm : s.mode ≠ .reset) (ha : s.agenda = [])
    (hg : s.cyc.genActive = true) (order : List Work) :
    let u := s.ownCycle (s.cyc.refInstant + 100 * s.image.tCyc)
    s.internalCycleEvent order = runWorks (arrange order u.cycleWorks) u := by
  unfold State.internalCycleEvent
  rw [State.settle_of_empty ha, if_pos ⟨hm, hg⟩]
  dsimp only
  rw [State.arrive_of_empty ha, s.numberCycle_atCount, State.post_ownCycle ha]
  rfl

/-- Settles O13: with nothing owed, an own event is its instant, its number and its works, which ascend in
rank. -/
theorem silentLineMakesCycleEvents : Obligations.SilentLineMakesCycleEvents := by
  intro s order hm ha
  refine ⟨fun hg => ?_, fun hg => ?_, State.mem_cycleWorks, rfl, rfl⟩
  · refine ⟨congrArg _ (State.cycLossTimeout_of_empty hm ha hg order),
      (State.lossWorks_ranked _).inRuleOrder.kept order, fun w => ?_⟩
    rw [mem_arrange, List.mem_cons]
  · exact ⟨congrArg _ (State.internalCycleEvent_of_empty hm ha hg order),
      (State.cycleWorks_ranked _).inRuleOrder.kept order, fun w => mem_arrange⟩

end Sys2Proof.Machine
end


section
/-! SUPPORT. The works of a cycle event that no command takes: waiting tuning values (R22), the freshness step
(R137, R140), and the works that change each slot's record by itself (R52, R142, R156). -/

namespace Sys2Proof.Machine

variable (s : State) (i : SlotId)

/-! ### Waiting tuning values (R22) -/

/-- One waiting value takes its own word of the image. -/
theorem stagedInto_getElem (staged : Vector (Option Word) 7) (img : Image) (j : Fin 7) (n : Nat)
    (h : n < 256) :
    (stagedInto i staged img j)[n] =
      if n = 56 + 16 * i.val + j.val then (staged[j]).getD img[n] else img[n] := by
  unfold stagedInto
  cases staged[j] with
  | none => exact (ite_self _).symm
  | some v => simp only [Image.setItem, Item.index, Vector.getElem_set, Option.getD_some, eq_comm]

/-- A word that no waiting value takes stays as it is. -/
theorem foldl_stagedInto_other (staged : Vector (Option Word) 7) {js : List (Fin 7)} (img : Image)
    (n : Nat) (h : n < 256) (hn : ∀ j ∈ js, n ≠ 56 + 16 * i.val + j.val) :
    (js.foldl (stagedInto i staged) img)[n] = img[n] := by
  induction js generalizing img with
  | nil => rfl
  | cons k ks ih =>
    obtain ⟨hk, hks⟩ := List.forall_mem_cons.mp hn
    rw [List.foldl_cons, ih _ hks, stagedInto_getElem, if_neg hk]

/-- The word of an item takes the item's waiting value, where it has one. -/
theorem foldl_stagedInto_item (staged : Vector (Option Word) 7) {js : List (Fin 7)} (hnodup : js.Nodup)
    (img : Image) {j : Fin 7} (hj : j ∈ js) :
    (js.foldl (stagedInto i staged) img)[56 + 16 * i.val + j.val]'(by omega) =
      (staged[j]).getD (img[56 + 16 * i.val + j.val]'(by omega)) := by
  induction js generalizing img with
  | nil => cases hj
  | cons k ks ih =>
    obtain ⟨hk, hks⟩ := List.nodup_cons.mp hnodup
    rw [List.foldl_cons]
    rcases List.mem_cons.mp hj with rfl | hj
    · have hlater : ∀ m ∈ ks, 56 + 16 * i.val + j.val ≠ 56 + 16 * i.val + m.val := fun m hm he =>
        hk (Fin.ext (Nat.add_left_cancel he) ▸ hm)
      rw [foldl_stagedInto_other i staged _ _ _ hlater, stagedInto_getElem, if_pos rfl]
    · have hne : ¬56 + 16 * i.val + j.val = 56 + 16 * i.val + k.val := fun he =>
        hk (Fin.ext (Nat.add_left_cancel he) ▸ hj)
      rw [ih hks _ hj, stagedInto_getElem, if_neg hne]

theorem State.applyStaged_slot (j : SlotId) :
    (s.applyStaged i).slot j =
      if j = i then { s.slot i with staged := Vector.replicate 7 none } else s.slot j := by
  simp only [State.applyStaged, State.slot_setSlot, eq_comm (a := i)]
  rfl

/-! ### The freshness step (R137, R140) -/

variable {s} in
theorem State.stepFreshness_of_below (h : s.safety.freshness + 1 < s.image.safeTmo) :
    s.stepFreshness = { s with safety := { s.safety with freshness := s.safety.freshness + 1 } } := by
  rw [State.stepFreshness_below h, State.steppedFreshness, min_eq_left h.le]

variable {s i} in
/-- Of a slot whose permission is formed as it stands, the limit alone is renewed (R138). -/
theorem State.reformPermissions_slot_of_same (h : (s.slot i).perm = (s.formPermission i).1) :
    s.reformPermissions.slot i = { s.slot i with lPerm := (s.formPermission i).2 } := by
  rw [State.reformPermissions_slot, Slot.formed, if_pos h, ← h]

variable {s i} in
theorem State.reformSlot_of_same (h : ((s.slot i).perm, (s.slot i).lPerm) = s.formPermission i) :
    s.reformSlot i = s := by
  unfold State.reformSlot
  rw [← h]
  exact (if_pos rfl).trans (s.setSlot_slot i)

variable {s} in
/-- Permissions that all stand as they are formed stay so (R140). -/
theorem State.reformPermissions_of_same
    (h : ∀ i, ((s.slot i).perm, (s.slot i).lPerm) = s.formPermission i) :
    s.reformPermissions = s := by
  unfold State.reformPermissions
  induction allSlots with
  | nil => rfl
  | cons i is ih => rw [List.foldl_cons, State.reformSlot_of_same (h i), ih]

variable {s} in
/-- A flag that is in the global set already changes nothing (R158). -/
theorem State.setFlag_of_set {f : Flag} (h : s.globalSet &&& f.bit = f.bit) : s.setFlag f = s := by
  have hset : s.globalSet ||| f.bit = s.globalSet := by
    rw [← h]
    ext
    simp +contextual
  rw [State.setFlag, hset]

variable {s} in
/-- States with the rest alike differ in slots and legs alone. -/
theorem State.SameRest.frame {t : State} (h : s.SameRest t) :
    { t with slots := s.slots, legs := s.legs } = s := by
  simp only [h.groups, h.dc, h.cyc, h.safety, h.ports, h.drives, h.mode, h.image, h.nv, h.loadBuf,
    h.loadPage, h.signature, h.imageBad, h.storeOp, h.globalSet, h.now, h.lastFast, h.lastVdc,
    h.lastTemp, h.agenda, h.pending]

/-- The state that a freshness step reaching SAFE_TMO leaves before its consequences (R137). -/
def State.timedOut (s : State) : State :=
  { s with safety := { s.safety with freshness := s.image.safeTmo } }

variable {s} in
theorem State.stepFreshness_of_reached (h : s.image.safeTmo ≤ s.safety.freshness + 1) :
    s.stepFreshness = (s.timedOut.setFlag .safetyLost).reformPermissions := by
  rw [State.stepFreshness_lost h, State.steppedFreshness, min_eq_right h]
  rfl

variable {s} in
/-- A step that finds SAFETY_LOST set and every permission as it is formed leaves the count alone
(R137, R140). -/
theorem State.stepFreshness_of_settled (h : s.image.safeTmo ≤ s.safety.freshness + 1)
    (hflag : s.globalSet &&& 0x0010#16 = 0x0010#16)
    (hsame : ∀ i, ((s.slot i).perm, (s.slot i).lPerm) = s.timedOut.formPermission i) :
    s.stepFreshness = s.timedOut := by
  have hset : s.timedOut.setFlag .safetyLost = s.timedOut := State.setFlag_of_set hflag
  rw [State.stepFreshness_of_reached h, hset, State.reformPermissions_of_same hsame]

/-- After the permissions have been formed afresh, each slot has the pair that is formed for it (R138). -/
theorem State.reformPermissions_formed :
    ((s.reformPermissions.slot i).perm, (s.reformPermissions.slot i).lPerm) = s.formPermission i := by
  rw [State.reformPermissions_slot]
  obtain ⟨-, -, -, -, -, hperm, hlimit, -⟩ :=
    Slot.formed_keeps (s.slot i) (s.image.stopCycles (s.leadOf i)) (s.formPermission i)
  rw [hperm, hlimit]

variable {s} in
/-- The consequences of a step that reaches SAFE_TMO: the flag, the permissions as they are formed, and no
more than slots and legs besides (R137, R140). -/
theorem State.stepFreshness_consequences (h : s.image.safeTmo ≤ s.safety.freshness + 1) :
    s.stepFreshness.safety = s.timedOut.safety ∧
      s.stepFreshness.globalSet = s.globalSet ||| 0x0010#16 ∧
      (∀ i, ((s.stepFreshness.slot i).perm, (s.stepFreshness.slot i).lPerm) =
        s.timedOut.formPermission i) ∧
      (∀ i, (s.slot i).perm = (s.timedOut.formPermission i).1 →
        s.stepFreshness.slot i = { s.slot i with lPerm := (s.timedOut.formPermission i).2 }) ∧
      { s.stepFreshness with
        safety := s.safety, globalSet := s.globalSet, slots := s.slots, legs := s.legs } = s := by
  rw [State.stepFreshness_of_reached h]
  have hform : (s.timedOut.setFlag .safetyLost).formPermission = s.timedOut.formPermission := rfl
  have hslot : (s.timedOut.setFlag .safetyLost).slot = s.slot := rfl
  have hset : (s.timedOut.setFlag .safetyLost).globalSet = s.globalSet ||| 0x0010#16 := rfl
  have hrest := (s.timedOut.setFlag .safetyLost).reformPermissions_sameRest
  have hpair := (s.timedOut.setFlag .safetyLost).reformPermissions_formed
  have hsame := fun i => State.reformPermissions_slot_of_same (s := s.timedOut.setFlag .safetyLost)
    (i := i)
  rw [hform] at hpair
  simp only [hform, hslot] at hsame
  have hframe := hrest.frame
  generalize (s.timedOut.setFlag .safetyLost).reformPermissions = t at *
  exact ⟨hrest.safety, hrest.globalSet.trans hset, hpair, hsame,
    (congrArg (fun x : State => { x with safety := s.safety, globalSet := s.globalSet }) hframe :)⟩

/-! ### Works on each slot by itself -/

/-- A change of every slot record leaves the rest of the part as it is. -/
theorem State.mapSlots_frame (f : SlotId → Slot → Slot) :
    { s.mapSlots f with slots := s.slots } = s := rfl

/-- Settles O14: each work is one operation, whose rule gives what it changes. -/
theorem cycleWorksTakeEffect : Obligations.CycleWorksTakeEffect := by
  intro s
  refine ⟨rfl, s.applyStaged_mem_cycleWorks, fun i => ⟨s.applyStaged_slot i, fun j => ?_,
      fun n h hn => ?_, rfl⟩,
    ⟨_, rfl, fun i => ?_, s.mapSlots_frame _⟩, State.stepFreshness_of_below, fun h => ⟨?_, ?_⟩,
    ⟨_, rfl, fun i => ?_, s.mapSlots_frame _⟩, fun i => rfl⟩
  · exact foldl_stagedInto_item i _ (List.nodup_finRange 7) _ (List.mem_finRange j)
  · exact foldl_stagedInto_other i _ _ n h fun j _ => hn j
  · exact s.slot_mapSlots _ i
  · exact ⟨_, rfl, State.stepFreshness_consequences h⟩
  · exact State.stepFreshness_of_settled h
  · exact s.slot_mapSlots _ i

end Sys2Proof.Machine
end


section
/-! SUPPORT. SETPOINT_STALE (R129): its notices go to the active slots that the silent link owns. -/

namespace Sys2Proof.Machine

variable (s : State) (i : SlotId) (d : DriveLink)

theorem State.mem_staleSlots (order : List SlotId) :
    i ∈ s.staleSlots d order ↔ (s.slot i).owner = some d ∧ (s.slot i).state.isActive = true := by
  simp [State.staleSlots, mem_slotsInOrder]

/-- SETPOINT_STALE stands out at HOLD_MAX for a link that owns an active slot (R129). -/
theorem State.staleDue_iff :
    s.staleDue d = true ↔
      (s.drive d).miss = s.image.holdMax ∧
        ∃ i, (s.slot i).owner = some d ∧ (s.slot i).state.isActive = true := by
  simp only [State.staleDue, Bool.and_eq_true, beq_iff_eq, Bool.not_eq_true',
    List.isEmpty_eq_false_iff_exists_mem, State.mem_staleSlots]

variable {s} in
/-- What notices leave depends on which active slots are hit alone (R16). -/
theorem State.Noticed.of_active {c : Cause} {hit : SlotId → Prop} {t : State}
    (h : s.Noticed c (fun i => hit i ∧ (s.slot i).state.isActive = true) t) : s.Noticed c hit t where
  alone i hi ha hother := h.alone i ⟨hi, ha⟩ ha fun j hne hp hj => hother j hne hp hj.1
  withPartner i j hp hi hj hai haj := h.withPartner i j hp ⟨hi, hai⟩ (fun hn => hj hn.1) hai haj
  both i j hp hi hj hai haj := h.both i j hp ⟨hi, hai⟩ ⟨hj, haj⟩ hai haj
  legs i hi ha := h.legs i ⟨hi, ha⟩ ha

/-- Settles O15: SETPOINT_STALE is a row of notices to the active slots of the link. -/
theorem staleFaultsOwnedSlots : Obligations.StaleFaultsOwnedSlots := by
  intro s d order ws ha hmiss howned
  have hdue : s.staleDue d = true := (s.staleDue_iff d).mpr ⟨hmiss, howned⟩
  have hnotices : s.staleNotices d order = s.takeNotices (s.staleSlots d order) .setpointStale :=
    if_pos hdue
  have hto := fun i => s.mem_staleSlots i d order
  refine ⟨_, hnotices ▸ State.next_takeRow_front ha hdue,
    (s.takeNotices_noticed .setpointStale fun i => (hto i).symm).of_active,
    fun i => s.takeNotices_of_not_active i .setpointStale _, fun i howner hpartner => ?_,
    fun i l hact hfault hholds => ?_, fun l => (s.takeNotices_legs l .setpointStale _).2 ∘ ?_,
    (s.takeNotices_sameRest .setpointStale _).frame⟩
  · refine s.takeNotices_slot_of_not_reached i .setpointStale fun k hk hreach => ?_
    obtain ⟨hkowner, hkact⟩ := (hto k).mp hk
    obtain ⟨-, rfl | hp⟩ := hreach
    · exact howner hkowner
    · exact hpartner k hkowner hkact hp
  · exact (s.takeNotices_legs l .setpointStale _).1 ⟨i, ⟨hact, hfault⟩, hholds⟩
  · exact fun hfree k hk => hfree k hk.1 hk.2

end Sys2Proof.Machine
end


section
/-! SUPPORT. Setpoint Intake (R123 to R128): the entries of a telegram one after another, and the sets of
those that are ignored. -/

namespace Sys2Proof.Machine

variable (s : State) (d : DriveLink) (i : SlotId) (e : Entry)

/-! ### One entry (R124, R126) -/

theorem Slot.applyEntry_eq (x : Slot) (follower : Bool) :
    x.applyEntry follower e =
      { x with
        idW := if e.cur = true ∧ follower = false then e.idStar else x.idW
        iqW := if e.cur = true ∧ follower = false then e.iqStar else x.iqW
        theta := if e.ang then e.theta else x.theta
        omega := if e.ang then e.omega else x.omega
        anglePresent := e.ang || x.anglePresent } := by
  unfold Slot.applyEntry
  by_cases hcur : e.cur = true ∧ follower = false <;> cases hang : e.ang <;> simp [hcur]

theorem State.applyEntry_slot :
    (s.applyEntry d e).slot i =
      if e.slot = i ∧ (s.slot i).owner = some d then (s.slot i).applyEntry (s.isFollower i) e
      else s.slot i := by
  unfold State.applyEntry
  by_cases hi : e.slot = i
  · subst hi
    by_cases ho : (s.slot e.slot).owner = some d <;> simp [ho]
  · by_cases ho : (s.slot e.slot).owner = some d <;> simp [ho, hi]

/-- An entry leaves every slot its owner and its partner. -/
theorem State.applyEntry_keeps :
    ((s.applyEntry d e).slot i).owner = (s.slot i).owner ∧
      ((s.applyEntry d e).slot i).partner = (s.slot i).partner := by
  rw [State.applyEntry_slot]
  split
  · rw [Slot.applyEntry_eq]
    exact ⟨rfl, rfl⟩
  · exact ⟨rfl, rfl⟩

theorem State.applyEntry_isFollower : (s.applyEntry d e).isFollower i = s.isFollower i := by
  simp only [State.isFollower, (s.applyEntry_keeps d i e).2]

theorem State.applyEntry_frame : { s.applyEntry d e with slots := s.slots } = s := by
  unfold State.applyEntry
  split <;> rfl

/-! ### The entries of a telegram (R124, R125) -/

/-- The entries of a telegram of link `d`, applied in order. -/
def State.applyEntries (s : State) (d : DriveLink) (es : List Entry) : State :=
  es.foldl (fun s e => s.applyEntry d e) s

/-- Entries change slots alone (R124). -/
theorem State.applyEntries_frame (es : List Entry) :
    { s.applyEntries d es with slots := s.slots } = s := by
  induction es generalizing s with
  | nil => rfl
  | cons e es ih =>
    exact (congrArg (fun x : State => { x with slots := s.slots }) (ih (s.applyEntry d e))).trans
      (s.applyEntry_frame d e)

variable {s d i} in
/-- A slot that the link does not own, or that no entry names, stays as it is (R125). -/
theorem State.applyEntries_slot_of_none {es : List Entry}
    (h : (s.slot i).owner ≠ some d ∨ i ∉ es.map Entry.slot) :
    (s.applyEntries d es).slot i = s.slot i := by
  induction es generalizing s with
  | nil => rfl
  | cons e es ih =>
    have hkept : (s.applyEntry d e).slot i = s.slot i := by
      rw [State.applyEntry_slot, if_neg]
      rintro ⟨rfl, howner⟩
      exact h.elim (fun hn => hn howner) fun hn => hn (List.mem_cons_self ..)
    exact (ih (hkept.symm ▸ h.imp_right fun hn hmem => hn (List.mem_cons_of_mem _ hmem))).trans hkept

variable {s d e} in
/-- An owned slot that one entry names takes it, CUR of a follower aside (R124, R126). -/
theorem State.applyEntries_slot_of_mem {es : List Entry} (hnodup : (es.map Entry.slot).Nodup)
    (he : e ∈ es) (howner : (s.slot e.slot).owner = some d) :
    (s.applyEntries d es).slot e.slot =
      (s.slot e.slot).applyEntry (s.isFollower e.slot) e := by
  induction es generalizing s with
  | nil => cases he
  | cons f es ih =>
    obtain ⟨hf, hes⟩ := List.nodup_cons.mp hnodup
    change ((s.applyEntry d f).applyEntries d es).slot e.slot = _
    rcases List.mem_cons.mp he with rfl | he
    · rw [State.applyEntries_slot_of_none (.inr hf), State.applyEntry_slot, if_pos ⟨rfl, howner⟩]
    · have hne : f.slot ≠ e.slot := fun heq => hf (heq ▸ List.mem_map_of_mem (f := Entry.slot) he)
      have hkept : (s.applyEntry d f).slot e.slot = s.slot e.slot := by
        rw [State.applyEntry_slot, if_neg fun hn => hne hn.1]
      rw [ih hes he (hkept ▸ howner), hkept, State.applyEntry_isFollower]

/-! ### What is ignored (R125, R126) -/

theorem State.isFollower_iff :
    s.isFollower i = true ↔ ∃ p, (s.slot i).partner = some p ∧ p < i := by
  simp [State.isFollower, Option.any_eq_true]

theorem State.mem_ignoredEntries (es : List Entry) :
    i ∈ s.ignoredEntries d es ↔ i ∈ es.map Entry.slot ∧ (s.slot i).owner ≠ some d := by
  simp [State.ignoredEntries, ← exists_and_right, and_assoc]

theorem State.mem_ignoredCurs (es : List Entry) :
    i ∈ s.ignoredCurs d es ↔
      (∃ e ∈ es, e.slot = i ∧ e.cur = true) ∧ (s.slot i).owner = some d ∧
        ∃ p, (s.slot i).partner = some p ∧ p < i := by
  rw [← State.isFollower_iff]
  simp [State.ignoredCurs, ← exists_and_right, and_assoc]

/-! ### The intake (R123 to R128) -/

/-- What a link keeps after its telegram has been taken (R128). -/
def DriveRec.tookTelegram (x : DriveRec) (tel : Telegram) (entries curs : List SlotId) : DriveRec :=
  { x with
    store := some ⟨tel, true⟩, seqEcho := tel.seq, miss := 0, holdMark := false
    entryIgnored := entries, curIgnored := curs }

variable {s d} in
theorem State.intake_of_waiting {tel : Telegram} (h : (s.drive d).store = some ⟨tel, false⟩) :
    s.intake d =
      (s.applyEntries d tel.entries).setDrive d ((s.drive d).tookTelegram tel
        (s.ignoredEntries d tel.entries) (s.ignoredCurs d tel.entries)) := by
  unfold State.intake
  simp only [h]
  rfl

variable {s d} in
/-- With no telegram, or one taken already, the cycle event is a miss (R128). -/
theorem State.intake_of_nothing
    (h : (s.drive d).store = none ∨ ∃ tel, (s.drive d).store = some ⟨tel, true⟩) :
    s.intake d = s.setDrive d { s.drive d with
      miss := min ((s.drive d).miss + 1) s.image.holdMax, holdMark := true
      entryIgnored := [], curIgnored := [] } := by
  unfold State.intake
  obtain hnone | ⟨tel, htaken⟩ := h
  · simp only [hnone]
  · simp only [htaken, if_true]

/-- Settles O19: a waiting telegram is its entries and the link's record, and anything else is a miss. -/
theorem intakeTakesTelegram : Obligations.IntakeTakesTelegram := by
  intro s d t
  refine ⟨fun tel hstore hnodup => ?_, State.intake_of_nothing⟩
  have ht : t = _ := State.intake_of_waiting hstore
  have hdrive : ∀ k, (s.applyEntries d tel.entries).drive k = s.drive k := fun k =>
    (congrArg (fun x : State => x.drive k) (s.applyEntries_frame d tel.entries) :)
  have hslot : ∀ i, t.slot i = (s.applyEntries d tel.entries).slot i := fun i => by
    rw [ht, State.setDrive_slot]
  have hrec : t.drive d = (s.drive d).tookTelegram tel
      (s.ignoredEntries d tel.entries) (s.ignoredCurs d tel.entries) := by
    rw [ht, State.drive_setDrive, if_pos rfl]
  refine ⟨?_, fun i => ?_, fun i => ?_, fun e he howner => ?_, fun i hi => ?_, ?_, fun k hk => ?_⟩
  · rw [hrec]
    rfl
  · rw [hrec]
    exact s.mem_ignoredEntries d i tel.entries
  · rw [hrec]
    exact s.mem_ignoredCurs d i tel.entries
  · rw [hslot, State.applyEntries_slot_of_mem hnodup he howner, Slot.applyEntry_eq]
  · rw [hslot, State.applyEntries_slot_of_none hi]
  · rw [ht]
    exact (congrArg (fun x : State => { x with drives := s.drives })
      (s.applyEntries_frame d tel.entries) :)
  · rw [ht, State.drive_setDrive, if_neg (Ne.symm hk), hdrive]

end Sys2Proof.Machine
end

section
/-! SUPPORT. The effective permission (R138): the stored permission of a slot or a pair, and what freshness
makes of it. -/

namespace Sys2Proof.Machine

variable {s : State} {i : SlotId}

/-! ### The stored permission (R138, step 2) -/

theorem State.storedPermission_alone (h : (s.slot i).partner = none) :
    s.storedPermission i = ((s.slot i).storedPerm, (s.slot i).storedLimit) := by
  simp only [State.storedPermission, h]

/-- Of a pair the more restrictive member decides, and of two alike the lower limit holds. -/
theorem State.storedPermission_pair {p : SlotId} (h : (s.slot i).partner = some p) :
    s.storedPermission i =
      if (s.slot i).storedPerm = (s.slot p).storedPerm then
        ((s.slot i).storedPerm, min (s.slot i).storedLimit (s.slot p).storedLimit)
      else if (s.slot i).storedPerm.code < (s.slot p).storedPerm.code then
        ((s.slot p).storedPerm, (s.slot p).storedLimit)
      else ((s.slot i).storedPerm, (s.slot i).storedLimit) := by
  simp only [State.storedPermission, h]

theorem State.storedPermission_pair_code {p : SlotId} (h : (s.slot i).partner = some p) :
    (s.storedPermission i).1.code =
      max (s.slot i).storedPerm.code (s.slot p).storedPerm.code := by
  rw [State.storedPermission_pair h]
  split
  · next heq => rw [heq, max_self]
  · split
    · next hlt => exact (max_eq_right hlt.le).symm
    · next hge => exact (max_eq_left (not_lt.mp hge)).symm

/-! ### The effective permission (R138, steps 1 and 3) -/

/-- Where permissions follow the stored ones: in OPERATE, after a fresh telegram, with no mismatch. -/
structure State.Permitting (s : State) : Prop where
  fresh : s.safety.freshSeen = true
  mode : s.mode = .operate
  matching : s.safety.mismatch = false

theorem State.formPermission_of_not_permitting (h : ¬s.Permitting) : s.formPermission i = (.off, 0) := by
  refine if_pos (by_contra fun hn => h ?_)
  simp only [not_or, Bool.not_eq_false, not_not, Bool.not_eq_true] at hn
  obtain ⟨hfresh, hmode, hmatch⟩ := hn
  exact ⟨hfresh, hmode, hmatch⟩

/-- A permission at a freshness counter that stands at SAFE_TMO or not: ALLOW and LIMIT become STOP there. -/
def Permission.lapsing (q : Permission) (lost : Bool) : Permission :=
  if lost = true ∧ q.permits = true then .stop else q

theorem Permission.lapsing_code (q : Permission) (lost : Bool) :
    (q.lapsing lost).code = max (if lost = true then Permission.stop.code else 0) q.code := by
  cases lost <;> cases q <;> rfl

theorem Permission.lapsing_lost_permits (q : Permission) : (q.lapsing true).permits = false := by
  cases q <;> rfl

/-- Elsewhere the stored permission stands as freshness leaves it, and only LIMIT has a limit. -/
theorem State.formPermission_of_permitting (h : s.Permitting) :
    s.formPermission i =
      ((s.storedPermission i).1.lapsing s.safetyLost,
        if (s.storedPermission i).1.lapsing s.safetyLost = .limit then (s.storedPermission i).2
        else 0) := by
  have hon : ¬(s.safety.freshSeen = false ∨ s.mode ≠ .operate ∨ s.safety.mismatch = true) := by
    simp [h.fresh, h.mode, h.matching]
  rw [State.formPermission, if_neg hon]
  obtain ⟨q, n⟩ := s.storedPermission i
  cases s.safetyLost <;> cases q <;> rfl

theorem State.safetyLost_iff : s.safetyLost = true ↔ s.image.safeTmo ≤ s.safety.freshness :=
  decide_eq_true_iff

theorem State.formPermission_code (h : s.Permitting) :
    (s.formPermission i).1.code =
      max (if s.image.safeTmo ≤ s.safety.freshness then Permission.stop.code else 0)
        (s.storedPermission i).1.code := by
  simp only [State.formPermission_of_permitting h, Permission.lapsing_code, State.safetyLost_iff]

/-- Under LIMIT the stored limit holds. -/
theorem State.formPermission_limit (h : s.Permitting) (hl : (s.formPermission i).1 = .limit) :
    (s.formPermission i).2 = (s.storedPermission i).2 := by
  rw [State.formPermission_of_permitting h] at hl ⊢
  exact if_pos hl

/-- Under no other permission is there a limit. -/
theorem State.formPermission_no_limit (hl : (s.formPermission i).1 ≠ .limit) :
    (s.formPermission i).2 = 0 := by
  by_cases h : s.Permitting
  · rw [State.formPermission_of_permitting h] at hl ⊢
    exact if_neg hl
  · rw [State.formPermission_of_not_permitting h]

/-- At SAFE_TMO no permission that is formed lets a slot run, and none has a limit (R138). -/
theorem State.formPermission_lost (hlost : s.safetyLost = true) :
    (s.formPermission i).1.permits = false ∧ (s.formPermission i).2 = 0 := by
  have hno : (s.formPermission i).1.permits = false := by
    by_cases h : s.Permitting
    · rw [State.formPermission_of_permitting h, hlost]
      exact Permission.lapsing_lost_permits _
    · rw [State.formPermission_of_not_permitting h]
      rfl
  refine ⟨hno, State.formPermission_no_limit fun hl => ?_⟩
  rw [hl] at hno
  cases hno

/-- Settles O31: OFF where permissions do not follow the stored ones, and elsewhere the stored permission of
the slot or of its pair. -/
theorem permissionIsFormed : Obligations.PermissionIsFormed := by
  intro s i f x lost
  refine ⟨fun hoff => ?_, fun hfresh hmode hmatch => ?_⟩
  · refine State.formPermission_of_not_permitting fun h => ?_
    simp [h.fresh, h.mode, h.matching] at hoff
  · have h : s.Permitting := ⟨hfresh, hmode, hmatch⟩
    refine ⟨fun p hp => ⟨?_, fun hl hx hy => ?_, fun hl hx hy => ?_, fun hl hx hy => ?_⟩,
      fun hp => ⟨?_, fun hl => ?_⟩, State.formPermission_no_limit⟩
    · exact (State.formPermission_code h).trans (by rw [State.storedPermission_pair_code hp])
    · rw [State.formPermission_limit h hl, State.storedPermission_pair hp, if_pos (hx.trans hy.symm)]
    · rw [State.formPermission_limit h hl, State.storedPermission_pair hp]
      simp [x, hx, hy, Permission.code]
    · rw [State.formPermission_limit h hl, State.storedPermission_pair hp]
      simp [x, hx, hy, Permission.code]
    · exact (State.formPermission_code h).trans (by rw [State.storedPermission_alone hp])
    · rw [State.formPermission_limit h hl, State.storedPermission_alone hp]

end Sys2Proof.Machine
end

section
/-! SUPPORT. The accepted TOFF level (R144 to R146): what LOW does to each slot and each leg, and the exit test
that HIGH brings. -/

namespace Sys2Proof.Machine

variable (s : State) (i j : SlotId) (l : LegId)

/-! ### TOFF accepted LOW (R13, R65, R145) -/

/-- A slot record after TOFF has been accepted LOW: out of the active states, with its setpoint cleared
(R13). -/
def Slot.torqueOff (x : Slot) : Slot :=
  if x.state.isActive = true then { x.leave .offHeld with idW := 0, iqW := 0 } else x

theorem State.toffSlot_slot :
    (s.toffSlot i).slot j = if i = j then (s.slot i).torqueOff else s.slot j := by
  unfold State.toffSlot Slot.torqueOff
  by_cases ha : (s.slot i).state.isActive = true
  · rw [if_pos ha, if_pos ha, State.slot_setSlot, State.haltSlot_slot, State.haltSlot_slot, if_pos rfl]
    split <;> rfl
  · rw [if_neg ha, if_neg ha]
    split
    · next hij => rw [hij]
    · rfl

theorem State.toffSlot_leg :
    (s.toffSlot i).leg l =
      if (s.slot i).state.isActive = true ∧ (s.slot i).holds l = true then (s.leg l).turnOff
      else s.leg l := by
  unfold State.toffSlot
  by_cases ha : (s.slot i).state.isActive = true <;> simp [ha]

theorem State.toffSlot_sameRest : s.SameRest (s.toffSlot i) := by
  unfold State.toffSlot
  split
  · exact (s.haltSlot_sameRest i .offHeld).trans (State.setSlot_sameRest _ i _)
  · exact State.SameRest.refl s

theorem State.foldl_toffSlot_sameRest (is : List SlotId) : s.SameRest (is.foldl State.toffSlot s) := by
  induction is generalizing s with
  | nil => exact State.SameRest.refl s
  | cons i is ih => exact (s.toffSlot_sameRest i).trans (ih _)

variable {s} in
/-- The record of one slot does not hang on whether another has been moved. -/
theorem State.toffSlot_slot_of_ne {i j : SlotId} (h : i ≠ j) : (s.toffSlot i).slot j = s.slot j := by
  rw [State.toffSlot_slot, if_neg h]

theorem State.foldl_toffSlot_slot {is : List SlotId} (hnodup : is.Nodup) :
    (is.foldl State.toffSlot s).slot j = if j ∈ is then (s.slot j).torqueOff else s.slot j := by
  induction is generalizing s with
  | nil => rfl
  | cons i is ih =>
    obtain ⟨hi, his⟩ := List.nodup_cons.mp hnodup
    rw [List.foldl_cons, ih _ his, State.toffSlot_slot]
    by_cases hij : i = j
    · subst hij
      simp [hi]
    · simp [hij, Ne.symm hij]

/-- The legs that are turned off are those of the slots that were active (R145). -/
theorem State.foldl_toffSlot_leg {is : List SlotId} (hnodup : is.Nodup) :
    (is.foldl State.toffSlot s).leg l =
      if ∃ i ∈ is, (s.slot i).state.isActive = true ∧ (s.slot i).holds l = true then (s.leg l).turnOff
      else s.leg l := by
  induction is generalizing s with
  | nil => simp
  | cons i is ih =>
    obtain ⟨hi, his⟩ := List.nodup_cons.mp hnodup
    have hothers : (∃ k ∈ is, ((s.toffSlot i).slot k).state.isActive = true ∧
          ((s.toffSlot i).slot k).holds l = true) ↔
        ∃ k ∈ is, (s.slot k).state.isActive = true ∧ (s.slot k).holds l = true :=
      exists_congr fun k => and_congr_right fun hk => by
        have hne : i ≠ k := fun e => hi (e.symm ▸ hk)
        rw [State.toffSlot_slot_of_ne hne]
    rw [List.foldl_cons, ih _ his, State.toffSlot_leg]
    simp only [hothers, List.exists_mem_cons_iff]
    by_cases hfirst : (s.slot i).state.isActive = true ∧ (s.slot i).holds l = true
    · simp [hfirst, Leg.turnOff]
    · simp [hfirst]

/-- The accepted level LOW, with the PHASE and FORCED legs off (R65). -/
def State.toffLow (s : State) : State :=
  ({ s with safety := { s.safety with toffHigh := false } }).mapLegs fun _ x =>
    if x.func.heldByToff = true then x.turnOff else x

theorem State.toffLow_slot : s.toffLow.slot i = s.slot i := State.mapLegs_slot _ _ i

theorem State.toffLow_leg :
    s.toffLow.leg l = if (s.leg l).func.heldByToff = true then (s.leg l).turnOff else s.leg l :=
  State.leg_mapLegs _ _ l

theorem State.toffLow_safety : s.toffLow.safety = { s.safety with toffHigh := false } :=
  State.mapLegs_safety _ _

theorem State.acceptToff_low : s.acceptToff false = allSlots.foldl State.toffSlot s.toffLow := by
  unfold State.acceptToff State.toffLow
  dsimp only
  rw [if_neg Bool.false_ne_true]
  congr 2
  funext _ x
  cases x.func <;> rfl

theorem State.acceptToff_low_slot : (s.acceptToff false).slot i = (s.slot i).torqueOff := by
  rw [State.acceptToff_low, State.foldl_toffSlot_slot (is := allSlots) _ _ (List.nodup_finRange 8),
    if_pos (mem_allSlots i), State.toffLow_slot]

theorem State.acceptToff_low_leg :
    (s.acceptToff false).leg l =
      if (s.leg l).func.heldByToff = true ∨
          ∃ i, (s.slot i).state.isActive = true ∧ (s.slot i).holds l = true then
        (s.leg l).turnOff
      else s.leg l := by
  rw [State.acceptToff_low, State.foldl_toffSlot_leg (is := allSlots) _ _ (List.nodup_finRange 8),
    State.toffLow_leg]
  simp only [State.toffLow_slot, mem_allSlots, true_and]
  by_cases hheld : (s.leg l).func.heldByToff = true
  · simp [hheld, Leg.turnOff]
  · simp [hheld]

/-- Nothing but the level, slots and legs changes (R145). -/
theorem State.acceptToff_low_sameRest : s.toffLow.SameRest (s.acceptToff false) := by
  rw [State.acceptToff_low]
  exact State.foldl_toffSlot_sameRest _ _

theorem State.acceptToff_low_frame :
    { s.acceptToff false with safety := s.safety, slots := s.slots, legs := s.legs } = s := by
  have hlow : { s.toffLow with safety := s.safety, slots := s.slots, legs := s.legs } = s := by
    simp only [State.toffLow, State.mapLegs]
  have hframe := s.acceptToff_low_sameRest.frame
  generalize s.acceptToff false = t at *
  generalize s.toffLow = u at *
  exact (congrArg (fun x : State =>
    { x with safety := s.safety, slots := s.slots, legs := s.legs }) hframe :).trans hlow

/-! ### The exit test (R15, R146) -/

theorem Permission.permits_iff (q : Permission) : q.permits = true ↔ q = .allow ∨ q = .limit := by
  cases q <;> simp [Permission.permits]

/-- A slot record after the exit test at an accepted TOFF level (R15). -/
def Slot.exited (x : Slot) (high : Bool) : Slot :=
  if x.state = .offHeld ∧ high = true ∧ x.perm.permits = true then { x with state := .claimed } else x

theorem State.exitTest_slot : s.exitTest.slot i = (s.slot i).exited s.safety.toffHigh :=
  s.slot_mapSlots _ i

/-- Settles O10: LOW is one rule for each slot and one for each leg, HIGH is the exit test. -/
theorem toffLowTakesTorque : Obligations.ToffLowTakesTorque := by
  intro s
  have hrest := s.acceptToff_low_sameRest
  refine ⟨⟨_, rfl, hrest.safety.trans s.toffLow_safety, fun i hact => ?_, fun i hact => ?_, fun l hl => ?_,
      fun l hfunc hfree => ?_, ?_⟩,
    ⟨_, rfl, rfl, fun i => ?_, rfl⟩⟩
  · exact (s.acceptToff_low_slot i).trans (if_pos hact)
  · exact (s.acceptToff_low_slot i).trans (if_neg (by simp [hact]))
  · exact (s.acceptToff_low_leg l).trans (if_pos hl)
  · refine (s.acceptToff_low_leg l).trans (if_neg ?_)
    rintro (hheld | ⟨i, hact, hholds⟩)
    · simp [hfunc] at hheld
    · rw [Slot.holds_eq_false (hfree i hact)] at hholds
      cases hholds
  · exact s.acceptToff_low_frame
  · refine (State.exitTest_slot _ i).trans ?_
    simp only [Slot.exited, Permission.permits_iff, true_and]
    rfl

end Sys2Proof.Machine
end

section
/-! SUPPORT. What a new permission does to a slot, in each of the moves of R12, and the freshness step that
reaches SAFE_TMO (R137, R140). -/

namespace Sys2Proof.Machine

variable (s : State) (i : SlotId)

/-! ### The moves of a slot (R12) -/

section
variable (x : Slot) (stop : Nat) (f : Permission × Nat)

theorem Slot.formed_perm : (x.formed stop f).perm = f.1 := by
  obtain ⟨-, -, -, -, -, hperm, -⟩ := x.formed_keeps stop f
  exact hperm

theorem Slot.formed_lPerm : (x.formed stop f).lPerm = f.2 := by
  obtain ⟨-, -, -, -, -, -, hlimit, -⟩ := x.formed_keeps stop f
  exact hlimit

/-- The table of R12: where a slot goes under a permission that is new to it. -/
def SlotState.moved (st : SlotState) (q : Permission) : SlotState :=
  match st, q with
  | .calibrating, .stop => .offHeld
  | .calibrating, .off => .offHeld
  | .run, .stop => .stopping
  | .run, .off => .offHeld
  | .stopping, .off => .offHeld
  | .stopping, .allow => .run
  | .stopping, .limit => .run
  | st, _ => st

theorem Slot.formed_state :
    (x.formed stop f).state = if x.perm = f.1 then x.state else x.state.moved f.1 := by
  obtain ⟨q, n⟩ := f
  unfold Slot.formed
  split
  · rfl
  · cases x.state <;> cases q <;> simp [SlotState.moved, Slot.leave]

variable {x f}

/-- A slot in RUN that is newly given STOP begins to stop, its loop untouched (R12, R141). -/
theorem Slot.formed_run_stop (hx : x.state = .run) (hnew : x.perm ≠ f.1) (hf : f.1 = .stop) :
    x.formed stop f =
      { x with perm := f.1, lPerm := f.2, state := .stopping, stopCount := stop, stopLoaded := true } := by
  rw [Slot.formed, if_neg hnew]
  simp only [hx, hf]

end

/-- The permissions that are formed look at nothing that forming them changes (R138). -/
theorem State.reformPermissions_formPermission :
    s.reformPermissions.formPermission i = s.formPermission i :=
  State.formPermission_congr i s.reformPermissions_sameRest fun j => by
    rw [State.reformPermissions_slot]
    obtain ⟨hpartner, hperm, hlimit, -⟩ :=
      (s.slot j).formed_keeps (s.image.stopCycles (s.leadOf j)) (s.formPermission j)
    exact ⟨hpartner, hperm, hlimit⟩

/-! ### The freshness step at SAFE_TMO (R137, R140) -/

variable {s}

theorem State.timedOut_safetyLost : s.timedOut.safetyLost = true := decide_eq_true le_rfl

/-- The step stands out while SAFETY_LOST is not set, or while a slot may still run (log 21). -/
theorem State.safetyTimeoutDue_of_reached (h : s.image.safeTmo ≤ s.safety.freshness + 1)
    (hleft : s.globalSet &&& 0x0010#16 = 0#16 ∨ ∃ i, (s.slot i).perm.permits = true) :
    s.safetyTimeoutDue = true := by
  have hstep : s.steppedFreshness = s.timedOut := by
    rw [State.steppedFreshness, min_eq_right h]
    rfl
  have hdue : s.safetyTimeoutDue =
      (s.timedOut.safetyLost && (s.globalSet &&& 0x0010#16 == 0#16 ||
        allSlots.any fun i => decide ((s.timedOut.formPermission i).1 ≠ (s.slot i).perm))) := by
    unfold State.safetyTimeoutDue
    rw [hstep]
    rfl
  rw [hdue, State.timedOut_safetyLost, Bool.true_and, Bool.or_eq_true]
  refine hleft.imp (fun hflag => beq_iff_eq.mpr hflag) ?_
  rintro ⟨i, hi⟩
  refine List.any_eq_true.mpr ⟨i, mem_allSlots i, decide_eq_true fun hsame => ?_⟩
  rw [← hsame, (State.formPermission_lost State.timedOut_safetyLost).1] at hi
  cases hi

/-- A slot after a freshness step that reaches SAFE_TMO (R138, R140). -/
theorem State.stepFreshness_slot (h : s.image.safeTmo ≤ s.safety.freshness + 1) :
    s.stepFreshness.slot i =
      (s.slot i).formed (s.image.stopCycles (s.leadOf i)) (s.timedOut.formPermission i) := by
  rw [State.stepFreshness_of_reached h, State.reformPermissions_slot]
  rfl

theorem State.stepFreshness_formPermission (h : s.image.safeTmo ≤ s.safety.freshness + 1) :
    s.stepFreshness.formPermission i = s.timedOut.formPermission i := by
  rw [State.stepFreshness_of_reached h, State.reformPermissions_formPermission]
  rfl

/-- Settles O16: the step stands out, and forms permissions of which none lets a slot run. -/
theorem safetyTimeoutStopsSlots : Obligations.SafetyTimeoutStopsSlots := by
  intro s ws ha htmo hleft
  obtain ⟨hsafety, hset, -, -, hframe⟩ := State.stepFreshness_consequences htmo
  have hslot := fun i => State.stepFreshness_slot i htmo
  have hform := fun i => State.stepFreshness_formPermission i htmo
  have hnone := fun i => State.formPermission_lost (i := i) (State.timedOut_safetyLost (s := s))
  refine ⟨s.stepFreshness,
    State.next_takeRow_front ha (State.safetyTimeoutDue_of_reached htmo hleft), hset, hsafety,
    fun i => ?_, fun i hrun hpermits hstop => ?_, (congrArg State.dc hframe :),
    (congrArg State.cyc hframe :), (congrArg State.drives hframe :), (congrArg State.mode hframe :),
    (congrArg State.image hframe :)⟩
  · obtain ⟨hpermits, hlimit⟩ := hnone i
    rw [hform, hslot, Slot.formed_perm, Slot.formed_lPerm]
    exact ⟨rfl, hlimit, hpermits⟩
  · rw [hslot, Slot.formed_perm] at hstop
    have hnew : (s.slot i).perm ≠ (s.timedOut.formPermission i).1 := fun hsame => by
      rw [hsame, hstop] at hpermits
      cases hpermits
    rw [hslot, Slot.formed_run_stop _ hrun hnew hstop]
    exact ⟨rfl, rfl, rfl, rfl⟩

end Sys2Proof.Machine
end

section
/-! SUPPORT. What a safety telegram carries (R135, R175), and the bytes of a 16-bit field (R165). -/

namespace Sys2Proof.Machine

/-- Two bytes of a telegram as a number. -/
theorem wordOf_eq (hi lo : Byte) : wordOf hi lo = BitVec.ofNat 16 (256 * hi.toNat + lo.toNat) := by
  apply BitVec.eq_of_toNat_eq
  have happend : (wordOf hi lo).toNat = hi.toNat <<< 8 ||| lo.toNat := BitVec.toNat_append hi lo
  rw [happend, ← Nat.shiftLeft_add_eq_or_of_lt lo.isLt, Nat.shiftLeft_eq, BitVec.toNat_ofNat]
  omega

theorem wordAt_eq (bytes : List Byte) (i : Nat) :
    wordAt bytes i = BitVec.ofNat 16 (256 * (byteAt bytes i).toNat + (byteAt bytes (i + 1)).toNat) :=
  wordOf_eq _ _

/-- An unknown permission code reads as OFF (R135). -/
theorem Permission.ofCode_code (n : Nat) : (Permission.ofCode n).code = min n 3 := by
  unfold Permission.ofCode
  split
  · next h => subst h; rfl
  · split
    · next h => subst h; rfl
    · split
      · next h => subst h; rfl
      · simp only [Permission.code]
        omega

theorem Permission.ofCode_eq_limit (n : Nat) : Permission.ofCode n = .limit ↔ n = 1 := by
  unfold Permission.ofCode
  split_ifs <;> simp_all

/-- The stored permission of a slot is the one its byte codes, and only LIMIT stores a limit (R135). -/
theorem readPermission_eq (bytes : List Byte) (i : SlotId) :
    readPermission bytes i =
      (Permission.ofCode (byteAt bytes (5 + 3 * i.val)).toNat,
        if (byteAt bytes (5 + 3 * i.val)).toNat = 1 then (wordAt bytes (6 + 3 * i.val)).toInt.toNat
        else 0) := by
  have hlimit := Permission.ofCode_eq_limit (byteAt bytes (5 + 3 * i.val)).toNat
  unfold readPermission
  generalize Permission.ofCode (byteAt bytes (5 + 3 * i.val)).toNat = q at hlimit
  cases q <;> simp [← hlimit]

end Sys2Proof.Machine
end


section
/-! SUPPORT. A safety telegram (R134 to R136, R139, R164, R166): the moves it brings to each slot, the legs of
the slots it halts, and select going high. -/

namespace Sys2Proof.Machine

/-! ### One slot under a new permission and the exit test (R12, R15) -/

section
variable {x : Slot} {stop : Nat} {f : Permission × Nat}

/-- A move of R12 into OFF_HELD is under a permission that lets no slot out again. -/
theorem SlotState.moved_ne_offHeld {st : SlotState} {q : Permission} (hst : st ≠ .offHeld)
    (hq : q.permits = true) : st.moved q ≠ .offHeld := by
  cases q with
  | allow => cases st <;> simp_all [SlotState.moved]
  | limit => cases st <;> simp_all [SlotState.moved]
  | stop => cases hq
  | off => cases hq

/-- The moves of R12 that halt an active slot. -/
theorem SlotState.moved_offHeld_cases {st : SlotState} {q : Permission} (hact : st.isActive = true)
    (h : st.moved q = .offHeld) :
    (st = .calibrating ∧ (q = .stop ∨ q = .off)) ∨ (st = .run ∧ q = .off) ∨
      (st = .stopping ∧ q = .off) := by
  cases st <;> cases q <;> simp_all [SlotState.moved, SlotState.isActive]

theorem SlotState.moved_run_stopping {q : Permission} (h : SlotState.run.moved q = .stopping) :
    q = .stop := by
  cases q <;> simp_all [SlotState.moved]

theorem SlotState.moved_stopping_run {q : Permission} (h : SlotState.stopping.moved q = .run) :
    q = .allow ∨ q = .limit := by
  cases q <;> simp_all [SlotState.moved]

/-- The exit test concerns no slot but one that was in OFF_HELD before (R15). -/
theorem Slot.formed_exited (high : Bool) (hx : x.state ≠ .offHeld) :
    (x.formed stop f).exited high = x.formed stop f := by
  refine if_neg ?_
  rintro ⟨hstate, -, hpermits⟩
  rw [Slot.formed_perm] at hpermits
  rw [Slot.formed_state] at hstate
  split at hstate
  · exact hx hstate
  · exact SlotState.moved_ne_offHeld hx hpermits hstate

theorem Slot.formed_exited_state_of_offHeld (high : Bool) (hx : x.state = .offHeld) :
    ((x.formed stop f).exited high).state =
      if high = true ∧ f.1.permits = true then .claimed else .offHeld := by
  have hstate : (x.formed stop f).state = .offHeld := by
    rw [Slot.formed_state, hx]
    exact ite_self _
  rw [Slot.exited, Slot.formed_perm]
  simp only [hstate, true_and]
  split
  · rfl
  · exact hstate

theorem Slot.formed_run_stopping (hx : x.state = .run) (hy : (x.formed stop f).state = .stopping) :
    x.formed stop f =
      { x with perm := f.1, lPerm := f.2, state := .stopping, stopCount := stop, stopLoaded := true } := by
  rw [Slot.formed_state, hx] at hy
  split at hy
  · cases hy
  · next hnew => exact Slot.formed_run_stop stop hx hnew (SlotState.moved_run_stopping hy)

/-- A slot in STOPPING that is given ALLOW or LIMIT runs on, its loop untouched (R12, R141). -/
theorem Slot.formed_stopping_run (hx : x.state = .stopping) (hy : (x.formed stop f).state = .run) :
    x.formed stop f =
      { x with perm := f.1, lPerm := f.2, state := .run, stopCount := 0, stopLoaded := false } := by
  rw [Slot.formed_state, hx] at hy
  split at hy
  · cases hy
  · next hnew =>
    rw [Slot.formed, if_neg hnew]
    obtain hq | hq := SlotState.moved_stopping_run hy <;> simp only [hx, hq]

/-- An active slot that goes to OFF_HELD leaves by R17. -/
theorem Slot.formed_halted (hx : x.state.isActive = true) (hy : (x.formed stop f).state = .offHeld) :
    x.formed stop f = { x with perm := f.1, lPerm := f.2 }.leave .offHeld := by
  rw [Slot.formed_state] at hy
  split at hy
  · rw [hy] at hx
    cases hx
  · next hnew =>
    rw [Slot.formed, if_neg hnew]
    obtain ⟨hst, hq | hq⟩ | ⟨hst, hq⟩ | ⟨hst, hq⟩ := SlotState.moved_offHeld_cases hx hy <;>
      simp only [hst, hq]

end

/-! ### The legs of a slot that is halted (R12, R64) -/

section
variable {s : State} {i : SlotId} {l : LegId}

/-- A slot that is active and goes to OFF_HELD as its permission is formed (R12). -/
structure State.HaltedAt (s : State) (i : SlotId) : Prop where
  active : (s.slot i).state.isActive = true
  new : (s.slot i).perm ≠ (s.formPermission i).1
  moved : (s.slot i).state.moved (s.formPermission i).1 = .offHeld

theorem State.haltedAt_of_state (hact : (s.slot i).state.isActive = true)
    (hstate : ((s.slot i).formed (s.image.stopCycles (s.leadOf i)) (s.formPermission i)).state =
      .offHeld) : s.HaltedAt i := by
  rw [Slot.formed_state] at hstate
  split at hstate
  · rw [hstate] at hact
    cases hact
  · next hnew => exact ⟨hact, hnew, hstate⟩

theorem State.movePermission_halts {q : Permission} (hact : (s.slot i).state.isActive = true)
    (hmoved : (s.slot i).state.moved q = .offHeld) :
    s.movePermission i q = s.haltSlot i .offHeld := by
  unfold State.movePermission
  obtain ⟨hst, hq | hq⟩ | ⟨hst, hq⟩ | ⟨hst, hq⟩ := SlotState.moved_offHeld_cases hact hmoved <;>
    simp only [hst, hq]

theorem State.HaltedAt.reformSlot_leg (h : s.HaltedAt i) (hl : (s.slot i).holds l = true) :
    (s.reformSlot i).leg l = (s.leg l).turnOff := by
  have hslot : (s.setSlot i { s.slot i with
      perm := (s.formPermission i).1, lPerm := (s.formPermission i).2 }).slot i =
        { s.slot i with perm := (s.formPermission i).1, lPerm := (s.formPermission i).2 } := by
    rw [State.slot_setSlot, if_pos rfl]
  unfold State.reformSlot
  dsimp only
  rw [if_neg h.new, State.movePermission_halts (by rw [hslot]; exact h.active)
    (by rw [hslot]; exact h.moved), State.haltSlot_leg, hslot]
  exact if_pos hl

/-- Another slot's permission makes no difference to a halt. -/
theorem State.HaltedAt.of_other {k : SlotId} (h : s.HaltedAt i) (hne : k ≠ i) :
    (s.reformSlot k).HaltedAt i := by
  have hslot : (s.reformSlot k).slot i = s.slot i := by rw [State.reformSlot_slot, if_neg hne]
  have hform : (s.reformSlot k).formPermission i = s.formPermission i :=
    State.formPermission_congr i (s.reformSlot_sameRest k) (s.reformSlot_stored k)
  exact ⟨hslot ▸ h.active, hslot ▸ hform ▸ h.new, hslot ▸ hform ▸ h.moved⟩

theorem Leg.turnOff_turnOff (x : Leg) : x.turnOff.turnOff = x.turnOff := rfl

/-- A leg once turned off stays so while other permissions are formed. -/
theorem State.foldl_reformSlot_leg (s : State) (l : LegId) (is : List SlotId) :
    (is.foldl State.reformSlot s).leg l = s.leg l ∨
      (is.foldl State.reformSlot s).leg l = (s.leg l).turnOff := by
  induction is generalizing s with
  | nil => exact .inl rfl
  | cons k is ih =>
    rw [List.foldl_cons]
    rcases ih (s.reformSlot k) with h | h <;> rcases s.reformSlot_leg k l with hk | hk <;>
      simp [h, hk, Leg.turnOff_turnOff]

theorem State.HaltedAt.foldl_reformSlot_leg {is : List SlotId} (h : s.HaltedAt i) (hi : i ∈ is)
    (hl : (s.slot i).holds l = true) :
    (is.foldl State.reformSlot s).leg l = (s.leg l).turnOff := by
  induction is generalizing s with
  | nil => cases hi
  | cons k is ih =>
    rw [List.foldl_cons]
    by_cases hk : k = i
    · subst hk
      have hoff := h.reformSlot_leg hl
      rcases State.foldl_reformSlot_leg (s.reformSlot k) l is with he | he <;> rw [he, hoff]
      exact Leg.turnOff_turnOff _
    · have hslot : (s.reformSlot k).slot i = s.slot i := by rw [State.reformSlot_slot, if_neg hk]
      rw [ih (h.of_other hk) ((List.mem_cons.mp hi).resolve_left (Ne.symm hk)) (hslot ▸ hl)]
      rcases s.reformSlot_leg k l with he | he <;> rw [he]
      exact Leg.turnOff_turnOff _

/-- The legs of a slot that the permissions halt are turned off (R12, R64). -/
theorem State.HaltedAt.reformPermissions_leg (h : s.HaltedAt i) (hl : (s.slot i).holds l = true) :
    s.reformPermissions.leg l = (s.leg l).turnOff :=
  h.foldl_reformSlot_leg (mem_allSlots i) hl

end

end Sys2Proof.Machine
end


section
/-! SUPPORT. Select going high on the Safety Link (R163, R166), and the five steps of a fresh telegram
(R139). -/

namespace Sys2Proof.Machine

variable {s : State} {bytes : List Byte}

/-! ### Select going high (R163, R173) -/

/-- A transfer that ends with no link reset owed: what was received in SHIFTING is given on, and the port
is closed (R163). -/
theorem State.transferEnd_not_owed {k : Link} (hsel : (s.port k).selLow = true)
    (howed : Work.linkReset k ∉ s.agenda) (take : State → Nat → List Byte → State) :
    s.transferEnd k take =
      let u := if (s.port k).rx = .shifting then take s (s.port k).bitCount (s.port k).bytes else s
      u.setPort k (u.port k).deselect := by
  rw [State.transferEnd, if_neg (by simp [hsel]), State.resetOwed_not_owed howed]

/-- A link reset alone owed drops the transfer before select goes high, and nothing is received (R173,
log 4). -/
theorem State.transferEnd_owed {k : Link} (hsel : (s.port k).selLow = true)
    (howed : s.agenda = [.linkReset k]) (hcount : (s.port k).resetCount = 200)
    (hdropped : (s.linkResetNow k).port k = (s.port k).dropTransfer)
    (take : State → Nat → List Byte → State) :
    s.transferEnd k take =
      ({ s.linkResetNow k with agenda := [] }).setPort k (s.port k).dropTransfer.deselect := by
  have hport : ({ s.linkResetNow k with agenda := [] } : State).port k = (s.port k).dropTransfer :=
    hdropped
  rw [State.transferEnd, if_neg (by simp [hsel]), State.resetOwed_owed howed hcount]
  dsimp only
  rw [hport, if_neg (by simp [Port.dropTransfer]), hport]

theorem State.linkResetNow_s :
    s.linkResetNow .s =
      ({ s with safety := { s.safety with errCode := 0, repeatMark := false } }).setPort .s
        (s.port .s).dropTransfer := rfl

/-- A link reset of the Safety Link, alone owed, as its select goes high (R150, R173). -/
theorem State.safetyEnd_owed (hsel : (s.port .s).selLow = true) (howed : s.agenda = [.linkReset .s])
    (hcount : (s.port .s).resetCount = 200) (take : State → Nat → List Byte → State) :
    s.transferEnd .s take =
      ({ s with
        agenda := []
        safety := { s.safety with errCode := 0, repeatMark := false } }).setPort .s
          (s.port .s).dropTransfer.deselect := by
  have hdropped : (s.linkResetNow .s).port .s = (s.port .s).dropTransfer := by
    rw [State.linkResetNow_s, State.port_setPort, if_pos rfl]
  have hreset : ({ s.linkResetNow .s with agenda := [] } : State) =
      ({ s with
        agenda := []
        safety := { s.safety with errCode := 0, repeatMark := false } }).setPort .s
          (s.port .s).dropTransfer := rfl
  rw [State.transferEnd_owed hsel howed hcount hdropped, hreset, State.setPort_setPort]

/-! ### A fresh telegram stored and compared (R136, R139 steps 1 and 2) -/

/-- The state after the first two steps of R139. -/
def State.received (s : State) (bytes : List Byte) : State :=
  (s.storeFresh bytes).compareUnlessLoading

/-- A slot record with the permission that a telegram carries for it (R135). -/
def Slot.told (x : Slot) (f : Permission × Nat) : Slot :=
  { x with storedPerm := f.1, storedLimit := f.2 }

theorem State.storeFresh_slot (i : SlotId) :
    (s.storeFresh bytes).slot i = (s.slot i).told (readPermission bytes i) := by
  simp only [State.storeFresh, State.slot, State.mapSlots, Fin.getElem_fin, Vector.getElem_ofFn]
  rfl

theorem State.storeFresh_frame :
    { s.storeFresh bytes with slots := s.slots, safety := s.safety } = s := rfl

/-- The comparison is made but in LOADING, for a fresh telegram has been seen (R136). -/
theorem State.received_eq :
    s.received bytes =
      { s.storeFresh bytes with
        safety := { s.safety with
          lastAlive := some (readAlive bytes)
          freshSeen := true
          expectedSig := readSignature bytes
          freshness := 0
          mismatch := if s.mode = .loading then s.safety.mismatch
            else decide (readSignature bytes ≠ s.signature) }
        globalSet := if s.mode ≠ .loading ∧ readSignature bytes ≠ s.signature then
            s.globalSet ||| 0x0020#16
          else s.globalSet } := by
  unfold State.received State.compareUnlessLoading
  by_cases hm : s.mode = .loading
  · rw [if_pos (show (s.storeFresh bytes).mode = .loading from hm)]
    simp only [hm, ne_eq, not_true_eq_false, false_and, if_true, if_false]
    rfl
  · rw [if_neg (show (s.storeFresh bytes).mode ≠ .loading from hm), State.compareSignature_eq,
      if_pos (show (s.storeFresh bytes).safety.freshSeen = true from rfl)]
    by_cases hsig : readSignature bytes = s.signature
    · simp [hm, State.storeFresh, hsig]
    · simp [hm, State.storeFresh, hsig]

theorem State.received_slot (i : SlotId) :
    (s.received bytes).slot i = (s.slot i).told (readPermission bytes i) := by
  rw [State.received_eq]
  exact State.storeFresh_slot i

theorem State.received_frame :
    { s.received bytes with slots := s.slots, safety := s.safety, globalSet := s.globalSet } = s := by
  rw [State.received_eq]
  exact (congrArg (fun x : State => { x with globalSet := s.globalSet })
    (State.storeFresh_frame (bytes := bytes)) :)

/-! ### The permissions formed and the exit test made (R139 steps 3 to 5) -/

/-- The exit test changes nothing of a slot but its state (R15). -/
theorem Slot.exited_frame (x : Slot) (high : Bool) : { x.exited high with state := x.state } = x := by
  unfold Slot.exited
  split <;> rfl

theorem State.applyFresh_eq :
    s.applyFresh bytes = (s.received bytes).reformPermissions.exitTest := rfl

theorem State.applyFresh_leg (l : LegId) :
    (s.applyFresh bytes).leg l = (s.received bytes).reformPermissions.leg l := by
  rw [State.applyFresh_eq, State.exitTest, State.mapSlots_leg]

theorem State.received_leg (l : LegId) : (s.received bytes).leg l = s.leg l :=
  (congrArg (fun x : State => x.leg l) (State.received_frame (s := s) (bytes := bytes)) :)

/-- Every slot after a fresh telegram (R12, R15, R139). -/
theorem State.applyFresh_slot (i : SlotId) :
    (s.applyFresh bytes).slot i =
      (((s.slot i).told (readPermission bytes i)).formed (s.image.stopCycles (s.leadOf i))
        ((s.received bytes).formPermission i)).exited s.safety.toffHigh := by
  have hsafety := (s.received bytes).reformPermissions_sameRest.safety
  have himage : (s.received bytes).image = s.image :=
    (congrArg State.image (State.received_frame (s := s) (bytes := bytes)) :)
  have hlead : (s.received bytes).leadOf i = s.leadOf i :=
    State.leadOf_congr i (by rw [State.received_slot]; rfl)
  have htoff : (s.received bytes).safety.toffHigh = s.safety.toffHigh := by rw [State.received_eq]
  rw [State.applyFresh_eq, State.exitTest_slot, State.reformPermissions_slot, hsafety, htoff, himage,
    hlead, State.received_slot]

theorem State.exitTest_sameRest : s.SameRest s.exitTest := by
  constructor <;> simp [State.exitTest]

/-- The last three steps change slots and legs alone. -/
theorem State.applyFresh_sameRest : (s.received bytes).SameRest (s.applyFresh bytes) :=
  (s.received bytes).reformPermissions_sameRest.trans State.exitTest_sameRest

theorem State.applyFresh_frame :
    { s.applyFresh bytes with
      slots := s.slots, legs := s.legs, safety := s.safety, globalSet := s.globalSet } = s := by
  have hrest := (State.applyFresh_sameRest (s := s) (bytes := bytes)).frame
  have hreceived := State.received_frame (s := s) (bytes := bytes)
  generalize s.applyFresh bytes = t at *
  generalize s.received bytes = u at *
  exact (congrArg (fun x : State =>
    { x with slots := s.slots, legs := s.legs, safety := s.safety, globalSet := s.globalSet })
      hrest :).trans (congrArg (fun x : State => { x with legs := s.legs }) hreceived :)

/-- A fresh telegram leaves the rest of the part as it is. -/
theorem State.applyFresh_keeps :
    (∀ k, (s.applyFresh bytes).port k = s.port k) ∧ (s.applyFresh bytes).dc = s.dc ∧
      (s.applyFresh bytes).cyc = s.cyc ∧ (s.applyFresh bytes).drives = s.drives ∧
      (s.applyFresh bytes).mode = s.mode ∧ (s.applyFresh bytes).image = s.image := by
  have hframe := State.applyFresh_frame (s := s) (bytes := bytes)
  generalize s.applyFresh bytes = t at *
  exact ⟨fun k => (congrArg (fun x : State => x.port k) hframe :), (congrArg State.dc hframe :),
    (congrArg State.cyc hframe :), (congrArg State.drives hframe :), (congrArg State.mode hframe :),
    (congrArg State.image hframe :)⟩

/-- What the Safety Link keeps after a fresh telegram (R134, R136, R139). -/
theorem State.applyFresh_safety :
    (s.applyFresh bytes).safety = { s.safety with
      lastAlive := some (readAlive bytes)
      freshSeen := true
      expectedSig := readSignature bytes
      freshness := 0
      mismatch := if s.mode = .loading then s.safety.mismatch
        else decide (readSignature bytes ≠ s.signature) } := by
  rw [State.applyFresh_sameRest.safety, State.received_eq]

theorem State.applyFresh_globalSet :
    (s.applyFresh bytes).globalSet =
      if s.mode ≠ .loading ∧ readSignature bytes ≠ s.signature then s.globalSet ||| 0x0020#16
      else s.globalSet := by
  rw [State.applyFresh_sameRest.globalSet, State.received_eq]

/-- The exit test leaves every permission as it would be formed (R138). -/
theorem State.exitTest_formPermission (i : SlotId) :
    s.exitTest.formPermission i = s.formPermission i := by
  refine State.formPermission_congr i s.exitTest_sameRest fun j => ?_
  have hframe := (s.slot j).exited_frame s.safety.toffHigh
  rw [State.exitTest_slot]
  exact ⟨(congrArg Slot.partner hframe :), (congrArg Slot.storedPerm hframe :),
    (congrArg Slot.storedLimit hframe :)⟩

theorem State.applyFresh_formPermission (i : SlotId) :
    (s.applyFresh bytes).formPermission i = (s.received bytes).formPermission i := by
  rw [State.applyFresh_eq, State.exitTest_formPermission, State.reformPermissions_formPermission]

end Sys2Proof.Machine
end


section
/-! SUPPORT. What each answer to a safety telegram leaves of the part (R134, R139, R164, R166). -/

namespace Sys2Proof.Machine

variable {s : State} {bytes : List Byte}

/-! ### One slot, told, formed and tested (R12, R15) -/

section
variable {x : Slot} {stop : Nat} {f : Permission × Nat} (high : Bool)

theorem Slot.exited_told (y : Slot) :
    (y.exited high).perm = y.perm ∧ (y.exited high).lPerm = y.lPerm ∧
      (y.exited high).storedPerm = y.storedPerm ∧ (y.exited high).storedLimit = y.storedLimit := by
  have hframe := y.exited_frame high
  exact ⟨(congrArg Slot.perm hframe :), (congrArg Slot.lPerm hframe :),
    (congrArg Slot.storedPerm hframe :), (congrArg Slot.storedLimit hframe :)⟩

/-- The state of a slot: out of OFF_HELD by the exit test, and otherwise by the table of R12. -/
theorem Slot.formed_exited_state :
    ((x.formed stop f).exited high).state =
      if x.state = .offHeld then if high = true ∧ f.1.permits = true then .claimed else .offHeld
      else if x.perm = f.1 then x.state
      else x.state.moved f.1 := by
  split
  · next hx => exact Slot.formed_exited_state_of_offHeld high hx
  · next hx => rw [Slot.formed_exited high hx, Slot.formed_state]

end

/-! ### A fresh telegram, slot by slot (R139) -/

section
variable (i : SlotId)

/-- The slot as the telegram leaves it has been told its permission and carries the one formed of it. -/
theorem State.applyFresh_permissions :
    ((s.applyFresh bytes).slot i).storedPerm = (readPermission bytes i).1 ∧
      ((s.applyFresh bytes).slot i).storedLimit = (readPermission bytes i).2 ∧
      ((s.applyFresh bytes).slot i).perm = ((s.applyFresh bytes).formPermission i).1 ∧
      ((s.applyFresh bytes).slot i).lPerm = ((s.applyFresh bytes).formPermission i).2 := by
  rw [State.applyFresh_formPermission, State.applyFresh_slot]
  generalize (s.received bytes).formPermission i = f
  obtain ⟨hperm, hlimit, hstored, hstoredLimit⟩ := Slot.exited_told s.safety.toffHigh
    (((s.slot i).told (readPermission bytes i)).formed (s.image.stopCycles (s.leadOf i)) f)
  obtain ⟨-, hkeptPerm, hkeptLimit, -⟩ := ((s.slot i).told (readPermission bytes i)).formed_keeps
    (s.image.stopCycles (s.leadOf i)) f
  exact ⟨hstored.trans hkeptPerm, hstoredLimit.trans hkeptLimit, hperm.trans (Slot.formed_perm _ _ _),
    hlimit.trans (Slot.formed_lPerm _ _ _)⟩

variable {i}

/-- Past the exit test: a slot that was not in OFF_HELD is as its permission left it (R12). -/
theorem State.applyFresh_slot_of_ne (h : (s.slot i).state ≠ .offHeld) :
    (s.applyFresh bytes).slot i =
      ((s.slot i).told (readPermission bytes i)).formed (s.image.stopCycles (s.leadOf i))
        ((s.received bytes).formPermission i) := by
  rw [State.applyFresh_slot]
  exact Slot.formed_exited _ h

theorem State.applyFresh_run_stopping (h : (s.slot i).state = .run)
    (hto : ((s.applyFresh bytes).slot i).state = .stopping) :
    ((s.applyFresh bytes).slot i).stopCount = s.image.stopCycles (s.leadOf i) ∧
      ((s.applyFresh bytes).slot i).stopLoaded = true ∧
      ((s.applyFresh bytes).slot i).intD = (s.slot i).intD ∧
      ((s.applyFresh bytes).slot i).intQ = (s.slot i).intQ := by
  rw [State.applyFresh_slot_of_ne (by simp [h])] at hto ⊢
  rw [Slot.formed_run_stopping (x := (s.slot i).told _) h hto]
  exact ⟨rfl, rfl, rfl, rfl⟩

theorem State.applyFresh_stopping_run (h : (s.slot i).state = .stopping)
    (hto : ((s.applyFresh bytes).slot i).state = .run) :
    ((s.applyFresh bytes).slot i).stopCount = 0 ∧
      ((s.applyFresh bytes).slot i).intD = (s.slot i).intD ∧
      ((s.applyFresh bytes).slot i).intQ = (s.slot i).intQ := by
  rw [State.applyFresh_slot_of_ne (by simp [h])] at hto ⊢
  rw [Slot.formed_stopping_run (x := (s.slot i).told _) h hto]
  exact ⟨rfl, rfl, rfl⟩

/-- A slot that the telegram halts leaves by R17, its legs off. -/
theorem State.applyFresh_halted (hact : (s.slot i).state.isActive = true)
    (hto : ((s.applyFresh bytes).slot i).state = .offHeld) :
    ((s.applyFresh bytes).slot i).intD = 0 ∧ ((s.applyFresh bytes).slot i).intQ = 0 ∧
      ((s.applyFresh bytes).slot i).stopCount = 0 ∧ ((s.applyFresh bytes).slot i).cal = none ∧
      ∀ x ∈ (s.slot i).seats, (s.applyFresh bytes).leg x.leg = (s.leg x.leg).turnOff := by
  have hne : (s.slot i).state ≠ .offHeld := fun he => by
    rw [he] at hact
    cases hact
  rw [State.applyFresh_slot_of_ne hne] at hto ⊢
  rw [Slot.formed_halted (x := (s.slot i).told _) hact hto]
  refine ⟨rfl, rfl, rfl, rfl, fun x hx => ?_⟩
  have himage : (s.received bytes).image = s.image :=
    (congrArg State.image (State.received_frame (s := s) (bytes := bytes)) :)
  have hlead : (s.received bytes).leadOf i = s.leadOf i :=
    State.leadOf_congr i (by rw [State.received_slot]; rfl)
  have hhalted : (s.received bytes).HaltedAt i :=
    State.haltedAt_of_state (by rw [State.received_slot]; exact hact)
      (by rw [State.received_slot, himage, hlead]; exact hto)
  have hholds : ((s.received bytes).slot i).holds x.leg = true := by
    rw [State.received_slot]
    exact List.any_eq_true.mpr ⟨x, hx, decide_eq_true rfl⟩
  rw [State.applyFresh_leg, hhalted.reformPermissions_leg hholds, State.received_leg]

end

/-! ### The answers of the Safety Link (R134, R164, R166) -/

theorem State.safetyReceived_refused {bits : Nat} {e : CheckFail} (h : acceptance .s bits bytes = some e) :
    s.safetyReceived bits bytes =
      ({ s with
        globalSet := s.globalSet ||| 0x0400#16
        safety := { s.safety with errCode := e.code } }).setPort .s
          { s.port .s with failed := true } := by
  simp only [State.safetyReceived, h]
  rfl

theorem State.safetyReceived_repeat {bits : Nat} (h : acceptance .s bits bytes = none)
    (halive : s.safety.lastAlive = some (readAlive bytes)) :
    s.safetyReceived bits bytes =
      ({ s with safety := { s.safety with repeatMark := true } }).setPort .s
        { s.port .s with failed := false } := by
  simp only [State.safetyReceived, h]
  exact if_pos halive

theorem State.safetyReceived_fresh {bits : Nat} (h : acceptance .s bits bytes = none)
    (halive : s.safety.lastAlive ≠ some (readAlive bytes)) :
    s.safetyReceived bits bytes = (s.linkPassed .s).applyFresh bytes := by
  simp only [State.safetyReceived, h]
  exact if_neg halive

/-- The telegram's fields by their bytes (R135, R175). -/
theorem readSafety_fields (bytes : List Byte) (i : SlotId) :
    let b : Nat → Byte := fun i => bytes.getD i 0#8
    let word : Nat → Word := fun i => BitVec.ofNat 16 (256 * (b i).toNat + (b (i + 1)).toNat)
    readAlive bytes = b 2 ∧ readSignature bytes = word 3 ∧
      (readPermission bytes i).1.code = min (b (5 + 3 * i.val)).toNat 3 ∧
      (readPermission bytes i).2 =
        if (b (5 + 3 * i.val)).toNat = 1 then (max (word (6 + 3 * i.val)).toInt 0).toNat else 0 := by
  intro b word
  refine ⟨rfl, wordAt_eq bytes 3, ?_, ?_⟩
  · rw [readPermission_eq]
    exact Permission.ofCode_code _
  · have hnat : ∀ z : Int, z.toNat = (max z 0).toNat := fun z => by omega
    rw [readPermission_eq, wordAt_eq, hnat]
    rfl

/-- The state of each slot after a fresh telegram (R12, R15). -/
theorem State.applyFresh_state (i : SlotId) :
    ((s.applyFresh bytes).slot i).state =
      if (s.slot i).state = .offHeld then
        if s.safety.toffHigh = true ∧ ((s.applyFresh bytes).slot i).perm.permits = true then .claimed
        else .offHeld
      else if (s.slot i).perm = ((s.applyFresh bytes).slot i).perm then (s.slot i).state
      else (s.slot i).state.moved ((s.applyFresh bytes).slot i).perm := by
  rw [State.applyFresh_slot]
  obtain ⟨hperm, -⟩ := Slot.exited_told s.safety.toffHigh
    (((s.slot i).told (readPermission bytes i)).formed (s.image.stopCycles (s.leadOf i))
      ((s.received bytes).formPermission i))
  rw [hperm, Slot.formed_perm]
  exact Slot.formed_exited_state _

theorem State.linkPassed_port : (s.linkPassed .s).port .s = { s.port .s with failed := false } :=
  (State.port_setPort _ _ _ _).trans (if_pos rfl)

/-- Settles O30: a reset owed, a transfer not received, and each of the three answers to one that was. -/
theorem safetyTelegramActs : Obligations.SafetyTelegramActs := by
  refine ⟨readSafety_fields, fun s hsel => ?_⟩
  intro p closed
  refine ⟨fun howed hcount => ?_, fun howed => ?_⟩
  · exact congrArg Host.Outcome.next (State.safetyEnd_owed hsel howed hcount State.safetyReceived)
  · have hend := State.transferEnd_not_owed hsel howed State.safetyReceived
    have hexec : exec .safetyTelegram s = .next (s.transferEnd .s State.safetyReceived) := rfl
    rw [hexec, hend]
    refine ⟨fun hrx => ?_, fun e hrx hfail => ?_, fun hrx hpass halive => ?_,
      fun hrx hpass halive => ?_⟩
    · rw [if_neg hrx]
      rfl
    · rw [if_pos hrx, State.safetyReceived_refused hfail]
      dsimp only
      rw [State.port_setPort, if_pos rfl, State.setPort_setPort]
      rfl
    · rw [if_pos hrx, State.safetyReceived_repeat hpass halive]
      dsimp only
      rw [State.port_setPort, if_pos rfl, State.setPort_setPort]
      rfl
    · rw [if_pos hrx, State.safetyReceived_fresh hpass halive]
      have hsafety := State.applyFresh_safety (s := s.linkPassed .s) (bytes := p.bytes)
      have hset := State.applyFresh_globalSet (s := s.linkPassed .s) (bytes := p.bytes)
      have hperms := State.applyFresh_permissions (s := s.linkPassed .s) (bytes := p.bytes)
      have hstate := State.applyFresh_state (s := s.linkPassed .s) (bytes := p.bytes)
      have hstopping := fun i =>
        State.applyFresh_run_stopping (s := s.linkPassed .s) (bytes := p.bytes) (i := i)
      have hrunning := fun i =>
        State.applyFresh_stopping_run (s := s.linkPassed .s) (bytes := p.bytes) (i := i)
      have hhalted := fun i => State.applyFresh_halted (s := s.linkPassed .s) (bytes := p.bytes) (i := i)
      obtain ⟨hport, hkept⟩ := State.applyFresh_keeps (s := s.linkPassed .s) (bytes := p.bytes)
      change ∃ t : State, Host.Outcome.next
        (((s.linkPassed .s).applyFresh p.bytes).setPort .s
          (((s.linkPassed .s).applyFresh p.bytes).port .s).deselect) = .next t ∧ _
      generalize (s.linkPassed .s).applyFresh p.bytes = v at *
      refine ⟨_, rfl, ?_, hsafety, hset, hperms, fun i => ?_, hstopping, hrunning,
        fun i hact hto => ?_, hkept⟩
      · rw [State.port_setPort, if_pos rfl, hport, State.linkPassed_port]
        rfl
      · have htoff : v.safety.toffHigh = s.safety.toffHigh := (congrArg Safety.toffHigh hsafety :)
        have hslot : (s.linkPassed .s).slot i = s.slot i := rfl
        have hlevel : (s.linkPassed .s).safety = s.safety := rfl
        have hrow := hstate i
        rw [hslot, hlevel] at hrow
        rw [State.setPort_safety, State.setPort_slot, htoff, hrow]
        generalize (s.slot i).state = st
        generalize (v.slot i).perm = q
        cases st <;> cases q <;> rfl
      · obtain ⟨hintD, hintQ, hcount, hcal, hlegs⟩ := hhalted i hact hto
        refine ⟨hintD, hintQ, hcount, hcal, fun x hx => ?_⟩
        have hleg : v.leg x.leg = (s.leg x.leg).turnOff := hlegs x hx
        rw [State.setPort_leg, hleg]
        exact ⟨Leg.turnOff_isOff _, rfl, rfl⟩

end Sys2Proof.Machine
end


section
/-! SUPPORT. The bytes of the snapshots (R165, R171, R172, R176): a value as two bytes, flags as the bits of a
byte, rows of records of one length, and what a CRC makes of the telegram it closes. -/

namespace Sys2Proof.Machine

/-! ### Values and flags -/

theorem hiByte_eq (w : Word) : hiByte w = BitVec.ofNat 8 (w.toNat / 256) := by
  apply BitVec.eq_of_toNat_eq
  simp [hiByte, Nat.shiftRight_eq_div_pow]

theorem loByte_eq (w : Word) : loByte w = BitVec.ofNat 8 w.toNat := by
  apply BitVec.eq_of_toNat_eq
  simp [loByte]

theorem wordBytes_eq (w : Word) :
    wordBytes w = [BitVec.ofNat 8 (w.toNat / 256), BitVec.ofNat 8 w.toNat] := by
  rw [wordBytes, hiByte_eq, loByte_eq]

@[simp] theorem wordBytes_length (w : Word) : (wordBytes w).length = 2 := rfl

/-- Eight flags as a byte, bit 0 first. -/
def flagByte (b0 b1 b2 b3 b4 b5 b6 b7 : Bool) : Byte :=
  BitVec.ofNat 8 (bitIf b0 0 + bitIf b1 1 + bitIf b2 2 + bitIf b3 3 + bitIf b4 4 + bitIf b5 5 +
    bitIf b6 6 + bitIf b7 7)

theorem flagByte_bits (b0 b1 b2 b3 b4 b5 b6 b7 : Bool) :
    let x := flagByte b0 b1 b2 b3 b4 b5 b6 b7
    x.getLsbD 0 = b0 ∧ x.getLsbD 1 = b1 ∧ x.getLsbD 2 = b2 ∧ x.getLsbD 3 = b3 ∧
      x.getLsbD 4 = b4 ∧ x.getLsbD 5 = b5 ∧ x.getLsbD 6 = b6 ∧ x.getLsbD 7 = b7 := by
  revert b0 b1 b2 b3 b4 b5 b6 b7
  decide

theorem fourFlags_bits (b0 b1 b2 b3 : Bool) :
    let n := bitIf b0 0 + bitIf b1 1 + bitIf b2 2 + bitIf b3 3
    n < 2 ^ 4 ∧ n.testBit 0 = b0 ∧ n.testBit 1 = b1 ∧ n.testBit 2 = b2 ∧ n.testBit 3 = b3 := by
  revert b0 b1 b2 b3
  decide

/-- Four flags below a code of four bits. -/
theorem flags_below_code_bits (b0 b1 b2 b3 : Bool) (code : Nat) :
    let x : Byte := BitVec.ofNat 8 (bitIf b0 0 + bitIf b1 1 + bitIf b2 2 + bitIf b3 3 + 16 * code)
    x.getLsbD 0 = b0 ∧ x.getLsbD 1 = b1 ∧ x.getLsbD 2 = b2 ∧ x.getLsbD 3 = b3 ∧
      (code ≤ 5 → x.toNat / 16 = code) := by
  obtain ⟨hlow, h0, h1, h2, h3⟩ := fourFlags_bits b0 b1 b2 b3
  generalize bitIf b0 0 + bitIf b1 1 + bitIf b2 2 + bitIf b3 3 = n at *
  have hbits : ∀ k < 4, (BitVec.ofNat 8 (n + 16 * code)).getLsbD k = n.testBit k := fun k hk => by
    rw [BitVec.getLsbD_ofNat, Nat.add_comm, Nat.testBit_two_pow_mul_add (i := 4) code hlow, if_pos hk,
      decide_eq_true (by omega : k < 8), Bool.true_and]
  refine ⟨(hbits 0 (by omega)).trans h0, (hbits 1 (by omega)).trans h1,
    (hbits 2 (by omega)).trans h2, (hbits 3 (by omega)).trans h3, fun hcode => ?_⟩
  rw [BitVec.toNat_ofNat]
  omega

/-! ### Rows of records -/

/-- The record of the n-th member, in a row of records of one length. -/
theorem flatMap_record {α β : Type} {f : α → List β} {k : Nat} (hlen : ∀ x, (f x).length = k)
    {xs : List α} {n : Nat} {x : α} (hx : xs[n]? = some x) (tail : List β) :
    ((xs.flatMap f ++ tail).drop (k * n)).take k = f x := by
  induction xs generalizing n with
  | nil => simp at hx
  | cons y ys ih =>
    cases n with
    | zero =>
      obtain rfl : y = x := by simpa using hx
      simp [hlen]
    | succ n =>
      have hy : k * (n + 1) = (f y).length + k * n := by rw [hlen, Nat.mul_succ, Nat.add_comm]
      rw [List.flatMap_cons, List.append_assoc, hy, List.drop_length_add_append]
      exact ih (by simpa using hx)

theorem flatMap_record_length {α β : Type} {f : α → List β} {k : Nat} (hlen : ∀ x, (f x).length = k)
    (xs : List α) : (xs.flatMap f).length = k * xs.length := by
  simp [List.length_flatMap, hlen, Nat.mul_comm]

/-! ### The CRC of a telegram that it closes (R165) -/

theorem crc_append (r : Word) (xs ys : List Byte) : crc r (xs ++ ys) = crc (crc r xs) ys :=
  List.foldl_append

/-- A register fed its own top bit shifts. -/
theorem crcBit_msb (r : Word) : crcBit r r.msb = r <<< 1 := if_pos rfl

theorem shiftLeft_msb {r : Word} {n : Nat} (hn : n < 16) : (r <<< n).msb = r.getLsbD (15 - n) := by
  rw [BitVec.msb_eq_getLsbD_last, BitVec.getLsbD_shiftLeft]
  simp [show ¬15 < n by omega]

/-- Fed bits of its own, from the top down, a register shifts a place for each. -/
theorem foldl_crcBit_own (r : Word) {n m : Nat} (h : n + m ≤ 16) :
    ((List.range m).map fun j => r.getLsbD (15 - (n + j))).foldl crcBit (r <<< n) = r <<< (n + m) := by
  induction m with
  | zero => rfl
  | succ m ih =>
    rw [List.range_succ, List.map_append, List.foldl_append, ih (by omega)]
    change crcBit (r <<< (n + m)) (r.getLsbD (15 - (n + m))) = _
    rw [← shiftLeft_msb (by omega), crcBit_msb, ← BitVec.shiftLeft_add]
    rfl

/-- A byte of a register's own bits, behind those already fed to it, shifts it eight places. -/
theorem crcByte_own {r : Word} {b : Byte} {n : Nat} (h : n + 8 ≤ 16)
    (hb : ∀ j < 8, b.getLsbD (7 - j) = r.getLsbD (15 - (n + j))) :
    crcByte (r <<< n) b = r <<< (n + 8) := by
  have hbits : ((List.range 8).map fun j => b.getLsbD (7 - j)) =
      (List.range 8).map fun j => r.getLsbD (15 - (n + j)) :=
    List.map_congr_left fun j hj => hb j (List.mem_range.mp hj)
  calc crcByte (r <<< n) b
      = ((List.range 8).map fun j => b.getLsbD (7 - j)).foldl crcBit (r <<< n) := rfl
    _ = r <<< (n + 8) := by rw [hbits, foldl_crcBit_own r h]

/-- A register that is fed its own two bytes, high byte first, is left at 0. -/
theorem crc_own_bytes (r : Word) : crc r (wordBytes r) = 0#16 := by
  have hhigh : crcByte (r <<< 0) (hiByte r) = r <<< (0 + 8) := crcByte_own (by omega) fun j hj => by
    simp [hiByte, show 8 + (7 - j) = 15 - j by omega, show 7 - j < 8 by omega]
  have hlow : crcByte (r <<< 8) (loByte r) = r <<< (8 + 8) := crcByte_own (by omega) fun j hj => by
    simp [loByte, show 15 - (8 + j) = 7 - j by omega, show 7 - j < 8 by omega]
  rw [BitVec.shiftLeft_zero] at hhigh
  calc crc r (wordBytes r)
      = crcByte (crcByte r (hiByte r)) (loByte r) := rfl
    _ = r <<< 16 := by rw [hhigh, hlow]
    _ = 0#16 := BitVec.shiftLeft_eq_zero le_rfl

theorem crc_closeWithCrc (l : Link) (bytes : List Byte) :
    crc (crcSeed l) (closeWithCrc l bytes) = 0#16 := by
  rw [closeWithCrc, crc_append, crc_own_bytes]

end Sys2Proof.Machine
end


section
/-! SUPPORT. The two snapshots (R149, R171, R172, R176): a head, a row of slot records, and the CRC that closes
them. -/

namespace Sys2Proof.Machine

/-! ### A head and records, closed -/

section
variable (l : Link) (head recs : List Byte)

theorem closeWithCrc_eq (bytes : List Byte) :
    closeWithCrc l bytes = bytes ++ wordBytes (crc (crcSeed l) bytes) := rfl

theorem closed_length :
    (closeWithCrc l (head ++ recs)).length = head.length + recs.length + 2 := by
  simp [closeWithCrc_eq, Nat.add_assoc]

theorem closed_take :
    (closeWithCrc l (head ++ recs)).take (head.length + recs.length) = head ++ recs := by
  rw [closeWithCrc_eq, ← List.length_append, List.take_left]

theorem closed_drop :
    (closeWithCrc l (head ++ recs)).drop (head.length + recs.length) =
      wordBytes (crc (crcSeed l) ((closeWithCrc l (head ++ recs)).take (head.length + recs.length))) := by
  rw [closed_take, closeWithCrc_eq, ← List.length_append, List.drop_left]

theorem closed_head : (closeWithCrc l (head ++ recs)).take head.length = head := by
  rw [closeWithCrc_eq, List.append_assoc, List.take_left]

/-- The n-th of a row of records of one length, behind the head. -/
theorem closed_record {α : Type} {f : α → List Byte} {k : Nat} (hlen : ∀ x, (f x).length = k)
    {xs : List α} {n : Nat} {x : α} (hx : xs[n]? = some x) :
    ((closeWithCrc l (head ++ xs.flatMap f)).drop (head.length + k * n)).take k = f x := by
  rw [closeWithCrc_eq, List.append_assoc, List.drop_length_add_append]
  exact flatMap_record hlen hx _

end

variable (s : State) (d : DriveLink) (i : SlotId)

/-! ### The drive response (R171, R176) -/

/-- The bytes before the slot records. -/
def State.driveHead (s : State) (d : DriveLink) : List Byte :=
  [0x32#8, BitVec.ofNat 8 (22 + 12 * (s.owned d).length), (s.drive d).seqEcho,
      BitVec.ofNat 8 s.mode.code] ++
    wordBytes s.cyc.number ++ wordBytes (BitVec.ofNat 16 s.dc.vdc) ++ wordBytes s.globalSet ++
    [s.linkFlags d, BitVec.ofNat 8 (s.owned d).length] ++ (s.drive d).response.bytes

theorem State.driveResponse_eq :
    s.driveResponse d =
      closeWithCrc d.toLink (s.driveHead d ++ (s.owned d).flatMap (s.slotRecord d)) := rfl

theorem State.driveHead_length : (s.driveHead d).length = 20 := rfl

theorem State.slotRecord_length : (s.slotRecord d i).length = 12 := rfl

theorem State.owned_eq :
    s.owned d = (List.finRange 8).filter fun i => decide ((s.slot i).owner = some d) :=
  List.filter_congr fun i _ => by
    rw [Bool.eq_iff_iff, beq_iff_eq, decide_eq_true_iff]

theorem State.linkFlags_eq :
    s.linkFlags d = flagByte (s.drive d).errs.framing (s.drive d).errs.length (s.drive d).errs.type
      (s.drive d).errs.crc (s.drive d).errs.content (s.drive d).errs.overrun (s.drive d).holdMark
      s.dc.chopper := rfl

theorem State.slotFlags_eq :
    s.slotFlags d i = flagByte (s.slot i).reported.vsat (decide (s.appliedScale i < 32768))
      (s.slot i).reported.regenLimited (s.slot i).reported.tempLimited
      (decide (i ∈ (s.drive d).curIgnored)) (decide (i ∈ (s.drive d).entryIgnored))
      (decide ((s.slot i).state = .stopping)) false := by
  have hstopping : ((s.slot i).state == .stopping) = decide ((s.slot i).state = .stopping) := rfl
  unfold State.slotFlags
  dsimp only
  rw [List.contains_eq_mem, List.contains_eq_mem, hstopping]
  rfl

/-! ### The safety response (R149, R172, R176) -/

/-- The bytes before the slots'. -/
def State.safetyHead (s : State) : List Byte :=
  [0x52#8, 40#8, s.safety.lastAlive.getD 0#8] ++ wordBytes s.signature ++ [s.safetyFlags]

theorem State.safetyResponse_eq :
    s.safetyResponse = closeWithCrc .s (s.safetyHead ++ allSlots.flatMap s.safetySlot) := rfl

theorem State.safetyHead_length : s.safetyHead.length = 6 := rfl

theorem State.safetySlot_length : (s.safetySlot i).length = 4 := rfl

theorem allSlots_getElem (i : SlotId) : allSlots[i.val]? = some i := by
  simp [allSlots]

/-- Settles O33: each snapshot is a head and records of one length, closed by its CRC. -/
theorem snapshotsAreClosed : Obligations.SnapshotsAreClosed := by
  intro s d t v own hi lo x
  have hown : s.owned d = own := s.owned_eq d
  have hrecs : ((s.owned d).flatMap (s.slotRecord d)).length = 12 * own.length := by
    rw [flatMap_record_length (s.slotRecord_length d), hown]
  have hslots : (allSlots.flatMap s.safetySlot).length = 32 :=
    flatMap_record_length s.safetySlot_length allSlots
  have hlen := closed_length d.toLink (s.driveHead d) ((s.owned d).flatMap (s.slotRecord d))
  have hdrop := closed_drop d.toLink (s.driveHead d) ((s.owned d).flatMap (s.slotRecord d))
  have hhead := closed_head d.toLink (s.driveHead d) ((s.owned d).flatMap (s.slotRecord d))
  have hslen := closed_length .s s.safetyHead (allSlots.flatMap s.safetySlot)
  have hsdrop := closed_drop .s s.safetyHead (allSlots.flatMap s.safetySlot)
  have hshead := closed_head .s s.safetyHead (allSlots.flatMap s.safetySlot)
  simp only [hrecs, s.driveHead_length, ← s.driveResponse_eq] at hlen hdrop hhead
  simp only [hslots, s.safetyHead_length, ← s.safetyResponse_eq] at hslen hsdrop hshead
  have hlength : (s.driveResponse d).length = 22 + 12 * own.length := by omega
  refine ⟨s.driveResponse d, s.safetyResponse, rfl, rfl, hlength, hslen, ?_, ?_,
    crc_closeWithCrc _ _, crc_closeWithCrc _ _, ?_, fun n i hn => ?_, ?_, fun i => ?_⟩
  · exact hdrop.trans (wordBytes_eq _)
  · exact hsdrop.trans (wordBytes_eq _)
  · refine ⟨s.linkFlags d, ?_, ?_⟩
    · rw [hhead, hlength]
      simp only [State.driveHead, Response.bytes, wordBytes_eq, hown]
      cases s.mode <;> rfl
    · rw [State.linkFlags_eq]
      exact flagByte_bits _ _ _ _ _ _ _ _
  · refine ⟨s.slotFlags d i, ?_, ?_⟩
    · have hrec := closed_record d.toLink (s.driveHead d) (s.slotRecord_length d)
        (xs := s.owned d) (hown ▸ hn)
      rw [← State.driveResponse_eq, State.driveHead_length] at hrec
      rw [hrec]
      simp only [State.slotRecord, wordBytes_eq]
      rfl
    · rw [State.slotFlags_eq]
      exact flagByte_bits _ _ _ _ _ _ _ _
  · refine ⟨s.safetyFlags, ?_, flags_below_code_bits _ _ _ _ _⟩
    rw [hshead]
    simp only [State.safetyHead, wordBytes_eq]
    rfl
  · have hrec := closed_record .s s.safetyHead s.safetySlot_length (allSlots_getElem i)
    rw [← State.safetyResponse_eq, State.safetyHead_length] at hrec
    rw [hrec]
    simp only [State.safetySlot, wordBytes_eq]
    rfl

end Sys2Proof.Machine
end


section
/-! SUPPORT. Sets of causes and flags by their bits, the flags that are gone (R157), the fault line (R160,
R161), and READ_FAULTS and READ_GLOBAL (R155, R159). -/

namespace Sys2Proof.Machine

/-! ### Sets by their bits -/

/-- A code's set holds the code's bit alone, for the codes that a set has a bit for. -/
theorem bitOf_getLsbD {code : Nat} (h : code < 16) (n : Nat) :
    (bitOf code).getLsbD n = decide (code = n) := by
  simp only [bitOf, BitVec.getLsbD_ofNat, Nat.testBit_two_pow]
  by_cases hn : code = n
  · simp [← hn, h]
  · simp [hn]

/-- The set of the codes whose source is not present, collected one by one onto `w`. -/
theorem foldl_absent_getLsbD {α : Type} {code : α → Nat} (hcode : ∀ x, code x < 16)
    (present : α → Bool) (xs : List α) (w : Word) (n : Nat) :
    (xs.foldl (fun w x => if present x then w else w ||| bitOf (code x)) w).getLsbD n = true ↔
      w.getLsbD n = true ∨ ∃ x ∈ xs, code x = n ∧ present x = false := by
  induction xs generalizing w with
  | nil => simp
  | cons x xs ih =>
    rw [List.foldl_cons, ih]
    cases hx : present x with
    | true => simp [hx]
    | false => simp [hx, bitOf_getLsbD (hcode x), or_assoc]

theorem unmasked_getLsbD (w m : Word) (n : Nat) :
    (w &&& ~~~m).getLsbD n = (w.getLsbD n && !m.getLsbD n) := by
  rw [BitVec.getLsbD_and, BitVec.getLsbD_not]
  by_cases hn : n < 16
  · simp [hn]
  · simp [BitVec.getLsbD_of_ge w n (not_lt.mp hn)]

theorem eq_zero_iff_getLsbD (w : Word) : w = 0#16 ↔ ∀ n, w.getLsbD n = false :=
  ⟨fun h n => by rw [h, BitVec.getLsbD_zero],
    fun h => BitVec.eq_of_getLsbD_eq fun n _ => by rw [h n, BitVec.getLsbD_zero]⟩

/-- A set has a member outside a mask when one of its bits stands where the mask's does not. -/
theorem unmasked_iff (w m : Word) :
    w &&& ~~~m ≠ 0#16 ↔ ∃ n, w.getLsbD n = true ∧ m.getLsbD n = false := by
  rw [Ne, eq_zero_iff_getLsbD]
  simp only [unmasked_getLsbD, not_forall, Bool.not_eq_false, Bool.and_eq_true, Bool.not_eq_true']

/-! ### The gone flags and the fault line (R157, R160, R161) -/

variable (s : State)

theorem Flag.code_lt (f : Flag) : f.code < 12 := by cases f <;> decide

theorem Flag.code_injective : Function.Injective Flag.code := by
  intro f g h
  have hread : ∀ k : Flag, allFlags[k.code]? = some k := fun k => by cases k <;> rfl
  exact Option.some.inj ((hread f).symm.trans (h ▸ hread g))

theorem mem_allFlags (f : Flag) : f ∈ allFlags := by cases f <;> decide

/-- The bits of the gone flags are those of the flags whose source is not present. -/
theorem State.goneFlags_getLsbD (n : Nat) :
    s.goneFlags.getLsbD n = true ↔ ∃ f : Flag, f.code = n ∧ s.flagPresent f = false := by
  have hfold := foldl_absent_getLsbD (fun f => (Flag.code_lt f).trans (by decide)) s.flagPresent
    allFlags 0#16 n
  exact hfold.trans (by simp [mem_allFlags])

/-- A flag is gone when its source is not present (R157). -/
theorem State.goneFlags_iff (f : Flag) :
    s.goneFlags.getLsbD f.code = true ↔ s.flagPresent f = false := by
  rw [s.goneFlags_getLsbD]
  exact ⟨fun ⟨_, hcode, hgone⟩ => Flag.code_injective hcode ▸ hgone, fun hgone => ⟨f, rfl, hgone⟩⟩

theorem State.goneFlags_beyond {n : Nat} (hn : 12 ≤ n) : s.goneFlags.getLsbD n = false := by
  rw [Bool.eq_false_iff, Ne, s.goneFlags_getLsbD]
  rintro ⟨f, hcode, -⟩
  have := f.code_lt
  omega

theorem State.safetyLost_eq_false_iff :
    s.safetyLost = false ↔ s.safety.freshness < s.image.safeTmo := by
  rw [Bool.eq_false_iff, Ne, s.safetyLost_iff, not_le]

theorem State.tempWarm_eq_false_iff : s.tempWarm = false ↔ ∀ g, (s.group g).temp ≤ s.image.tWarn := by
  rw [Bool.eq_false_iff, Ne, s.tempWarm_iff]
  push Not
  rfl

/-- FLT is low while a set of causes or the flags has a member that its mask lacks. -/
theorem State.fltLow_iff :
    s.fltLow = true ↔ (∃ i, (s.slot i).causes &&& ~~~s.image.maskCauses ≠ 0#16) ∨
      s.globalSet &&& ~~~s.image.maskFlags ≠ 0#16 := by
  simp [State.fltLow, allSlots]

/-! ### The readings served (R155, R159) -/

/-- A command that serves the request at the head of the queue answers it, and goes on with the works that
the cycle event owes behind it (R169). -/
theorem State.Serves.takeServed {s : State} {d : DriveLink} {r : Request} {rest : List Request}
    {ws : List Work} (h : s.Serves d r rest ws) {k : Kind} (hk : Kind.ofCode r.kind = k)
    (f : DriveLink → Request → State → State × Answer) :
    s.takeServed d k (fun t => t.serveWith d f) =
      runWorks ws (answered d r (f d r (s.dequeued d rest))) := by
  rw [State.takeServed_front h hk, h.serveWith]

/-- Settles O40: a flag is gone with its source, a bit outside its mask holds FLT low, and each reading's
answer is formed from the sets before the gone members leave them. -/
theorem faultReadsAnswer : Obligations.FaultReadsAnswer := by
  refine ⟨fun s => ?_, fun s d r rest ws hs => ⟨fun hk => ?_, fun hk => ?_⟩⟩
  · refine ⟨(s.goneFlags_iff .powerUp).mpr rfl, s.goneFlags_iff .dcUv, s.goneFlags_iff .dcOv,
      s.goneFlags_iff .cycLost, (s.goneFlags_iff .safetyLost).trans s.safetyLost_eq_false_iff,
      s.goneFlags_iff .signatureMismatch, s.goneFlags_iff .imageBad,
      (s.goneFlags_iff .tempWarn).trans s.tempWarm_eq_false_iff, s.goneFlags_iff .linkA,
      s.goneFlags_iff .linkB, s.goneFlags_iff .linkS, (s.goneFlags_iff .crossRequest).mpr rfl,
      fun n => s.goneFlags_beyond, ?_⟩
    simp only [s.fltLow_iff, unmasked_iff]
    rfl
  · have hkind : Kind.ofCode r.kind = .readFaults := by rw [hk]; rfl
    refine congrArg Host.Outcome.next ((hs.takeServed hkind doReadFaults).trans ?_)
    refine congrArg (runWorks ws) ?_
    unfold doReadFaults
    rw [apply_dite (answered d r)]
    refine dite_congr rfl (fun htarget => ?_) fun _ => rfl
    simp only [apply_ite (answered d r)]
    rfl
  · have hkind : Kind.ofCode r.kind = .readGlobal := by rw [hk]; rfl
    exact congrArg Host.Outcome.next (hs.takeServed hkind doReadGlobal)

end Sys2Proof.Machine
end

section
/-! SUPPORT. The wires of a link (R163, R174): the bit that a rising edge packs, and a port between its select
edges. -/

namespace Sys2Proof.Machine

variable {s : State} {k : Link} {p : Port} {sdi : Bool}

/-! ### A bit in (R163) -/

/-- The byte being packed, with one more bit below those it has. -/
def Port.packed (p : Port) (sdi : Bool) : Byte := (p.cur <<< 1) ||| (if sdi then 1#8 else 0#8)

theorem setWidth_ofBool (bit : Bool) : (BitVec.ofBool bit).setWidth 8 = if bit then 1#8 else 0#8 := by
  cases bit <;> rfl

/-- A rising edge in SHIFTING that does not complete a byte. -/
theorem Port.risingEdge_within (hrx : p.rx = .shifting) (hbyte : (p.bitCount + 1) % 8 ≠ 0) :
    p.risingEdge sdi =
      { p with clockSeen := true, bitCount := p.bitCount + 1, cur := p.packed sdi } := by
  rw [Port.risingEdge, if_pos hrx, Port.bitIn, setWidth_ofBool]
  exact if_neg hbyte

/-- One that completes a byte: the first 255 bytes are kept. -/
theorem Port.risingEdge_complete (hrx : p.rx = .shifting) (hbyte : (p.bitCount + 1) % 8 = 0) :
    p.risingEdge sdi =
      { p with
        clockSeen := true, bitCount := p.bitCount + 1, cur := 0#8
        bytes := if p.bytes.length < 255 then p.bytes ++ [p.packed sdi] else p.bytes } := by
  rw [Port.risingEdge, if_pos hrx, Port.bitIn, setWidth_ofBool]
  exact if_pos hbyte

/-- Outside SHIFTING a rising edge is noted for the reset count alone (log 23). -/
theorem Port.risingEdge_not_shifting (hrx : p.rx ≠ .shifting) :
    p.risingEdge sdi = { p with clockSeen := true } := if_neg hrx

/-! ### The three edges of the wires -/

theorem State.transferStart_received (hsel : (s.port k).selLow = false) (hm : s.mode ≠ .reset) :
    s.transferStart k = s.setPort k (s.port k).select := by
  rw [State.transferStart, if_neg (by simp [hsel]), if_neg hm]

/-- With RST low only the level is kept (log 9). -/
theorem State.transferStart_reset (hsel : (s.port k).selLow = false) (hm : s.mode = .reset) :
    s.transferStart k = s.setPort k { s.port k with selLow := true } := by
  rw [State.transferStart, if_neg (by simp [hsel]), if_pos hm]

theorem exec_linkClockEdge_rising (hm : s.mode ≠ .reset) :
    exec (.linkClockEdge k .rising sdi) s = .next (s.setPort k ((s.port k).risingEdge sdi)) :=
  congrArg Host.Outcome.next (if_neg hm)

theorem exec_linkClockEdge_falling (hm : s.mode ≠ .reset) :
    exec (.linkClockEdge k .falling sdi) s = .next (s.setPort k (s.port k).fallingEdge) :=
  congrArg Host.Outcome.next (if_neg hm)

/-- Settles O28: a rising edge goes by whether it completes a byte, a falling one only shifts in SHIFTING. -/
theorem selectAndClockShiftBits : Obligations.SelectAndClockShiftBits := by
  intro s k sdi p c
  refine ⟨fun hsel hm => congrArg Host.Outcome.next (State.transferStart_received hsel hm),
    fun hsel hm => congrArg Host.Outcome.next (State.transferStart_reset hsel hm), fun hm => ?_⟩
  rw [exec_linkClockEdge_rising hm, exec_linkClockEdge_falling hm]
  refine ⟨fun hrx hbyte => ?_, fun hrx hbyte => ?_, fun hrx => ?_, fun hrx => ⟨?_, ?_⟩⟩
  · rw [Port.risingEdge_within hrx hbyte]
    rfl
  · rw [Port.risingEdge_complete hrx hbyte]
    rfl
  · rw [Port.fallingEdge, if_pos hrx]
    rfl
  · rw [Port.risingEdge_not_shifting hrx]
  · rw [Port.fallingEdge, if_neg hrx, State.setPort_port]

end Sys2Proof.Machine
end


section
/-! SUPPORT. The link reset (R150, R173), and a request of a kind that no row of the table has (R169). -/

namespace Sys2Proof.Machine

variable {s : State}

/-- What a link reset leaves of a drive link's record: a STORE in flight alone stays in its queue (R150). -/
def DriveRec.afterReset (x : DriveRec) : DriveRec :=
  { x with
    store := none
    queue := if x.hold = .inFlight then x.queue.take 1 else []
    response := Response.zero
    errs := ErrMarks.clear }

theorem State.linkResetNow_drive (d : DriveLink) :
    s.linkResetNow d.toLink =
      (s.setPort d.toLink (s.port d.toLink).dropTransfer).setDrive d (s.drive d).afterReset := by
  cases d <;> rfl

/-- LINK_RESET, owed first and its count full. -/
theorem State.exec_linkReset_front {k : Link} {ws : List Work} (howed : s.agenda = .linkReset k :: ws)
    (hcount : (s.port k).resetCount = 200) :
    exec (.linkReset k) s = (s.linkResetNow k).thenWorks ws := by
  have hdue : s.linkResetDue k = true := decide_eq_true hcount
  have hwork : s.linkResetWork k = s.linkResetNow k := if_pos hdue
  rw [← hwork]
  exact State.next_takeRow_front howed hdue

/-- Settles O32: the reset stands first, and is made for a drive link and for the Safety Link. -/
theorem linkResetDropsTransfer : Obligations.LinkResetDropsTransfer := by
  intro s k ws howed hcount u
  rw [State.exec_linkReset_front howed hcount]
  refine ⟨fun d hd => ?_, fun hk => ?_⟩
  · subst hd
    rw [State.linkResetNow_drive]
    rfl
  · subst hk
    rfl

/-- Codes 15 to 255 name no kind (R169). -/
theorem Kind.ofCode_unknown {b : Byte} (h : 15 ≤ b.toNat) : Kind.ofCode b = .unknown := by
  unfold Kind.ofCode
  split
  case h_15 => rfl
  all_goals omega

/-- Settles O48: the head of the queue is of no known kind, and is answered by that alone. -/
theorem unknownKindAnswers : Obligations.UnknownKindAnswers := by
  intro s d r rest ws hs hkind
  exact congrArg Host.Outcome.next (hs.takeServed (Kind.ofCode_unknown hkind) doUnknown)

end Sys2Proof.Machine
end


section
/-! SUPPORT. The CRC of R165 in its own words, and the acceptance test of R164 as a search: the first of the five
checks that fails. -/

namespace Sys2Proof.Machine

/-! ### The CRC (R165) -/

theorem crcBit_eq (r : Word) (bit : Bool) :
    crcBit r bit = if bit = r.getLsbD 15 then r <<< 1 else (r <<< 1) ^^^ 0x1021#16 := by
  rw [crcBit, BitVec.msb_eq_getLsbD_last]

theorem crc_cons (seed : Word) (byte : Byte) (bytes : List Byte) :
    crc seed (byte :: bytes) =
      crc ([7, 6, 5, 4, 3, 2, 1, 0].foldl (fun r bit =>
        if byte.getLsbD bit = r.getLsbD 15 then r <<< 1 else (r <<< 1) ^^^ 0x1021#16) seed) bytes := by
  simp only [← crcBit_eq]
  rfl

/-! ### The five checks (R164) -/

/-- A check of R164 fails on `bits` bits, of which `bytes` were kept. -/
def FailsCheck (k : Link) (bits : Nat) (bytes : List Byte) (e : CheckFail) : Prop :=
  let b : Nat → Nat := fun i => (bytes.getD i 0#8).toNat
  match e with
  | .framing => bits % 8 ≠ 0
  | .length => bits / 8 < 2 ∨ bits / 8 < b 1 ∨ b 1 < (if k = .s then 31 else 14)
  | .type => b 0 ≠ (if k = .s then 0x51 else 0x31)
  | .crc => (crc (crcSeed k) (bytes.take (b 1 - 2))).toNat ≠ 256 * b (b 1 - 2) + b (b 1 - 1)
  | .content =>
    if k = .s then b 1 ≠ 31
    else 8 < b 3 ∨ b 1 ≠ 14 + 10 * b 3 ∨ (∃ i < b 3, 7 < b (12 + 10 * i)) ∨
      ∃ i j, i < j ∧ j < b 3 ∧ b (12 + 10 * i) = b (12 + 10 * j)

section
variable {k : Link} {bits : Nat} {bytes : List Byte}

theorem minLength_eq (k : Link) : minLength k = if k = .s then 31 else 14 := by cases k <;> rfl

theorem commandType_toNat (k : Link) :
    (commandType k).toNat = if k = .s then 0x51 else 0x31 := by cases k <;> rfl

theorem failsCheck_length_iff :
    FailsCheck k bits bytes .length ↔
      bits / 8 < 2 ∨ bits / 8 < lengthField bytes ∨ lengthField bytes < minLength k := by
  rw [minLength_eq]
  rfl

theorem failsCheck_type_iff :
    FailsCheck k bits bytes .type ↔ byteAt bytes 0 ≠ commandType k := by
  rw [Ne, ← BitVec.toNat_inj, commandType_toNat]
  rfl

theorem wordAt_toNat (bytes : List Byte) (i : Nat) :
    (wordAt bytes i).toNat = 256 * (byteAt bytes i).toNat + (byteAt bytes (i + 1)).toNat := by
  have hhi := (byteAt bytes i).isLt
  have hlo := (byteAt bytes (i + 1)).isLt
  rw [wordAt_eq, BitVec.toNat_ofNat]
  omega

/-- The last two of at least two bytes hold the CRC of those before them. -/
theorem failsCheck_crc_iff (hlen : 2 ≤ lengthField bytes) :
    FailsCheck k bits bytes .crc ↔
      crc (crcSeed k) (bytes.take (lengthField bytes - 2)) ≠ wordAt bytes (lengthField bytes - 2) := by
  have hlast : lengthField bytes - 2 + 1 = lengthField bytes - 1 := by omega
  rw [Ne, ← BitVec.toNat_inj, wordAt_toNat, hlast]
  rfl

/-- Entries that name no slot twice (R164). -/
theorem entrySlots_nodup_iff :
    (entrySlots bytes).Nodup ↔ ∀ i j, i < j → j < (byteAt bytes 3).toNat →
      (byteAt bytes (12 + 10 * i)).toNat ≠ (byteAt bytes (12 + 10 * j)).toNat := by
  simp only [entrySlots, List.Nodup, List.pairwise_iff_getElem, List.length_map, List.length_range,
    List.getElem_map, List.getElem_range]
  exact ⟨fun h i j hij hj => h i j (hij.trans hj) hj hij, fun h i j _ hj hij => h i j hij hj⟩

theorem entrySlots_all_iff :
    (entrySlots bytes).all (fun n => decide (n ≤ 7)) = true ↔
      ∀ i < (byteAt bytes 3).toNat, (byteAt bytes (12 + 10 * i)).toNat ≤ 7 := by
  simp [entrySlots]

theorem contentOk_drive_iff (hk : k ≠ .s) :
    contentOk k bytes = true ↔
      (byteAt bytes 3).toNat ≤ 8 ∧ lengthField bytes = 14 + 10 * (byteAt bytes 3).toNat ∧
        (entrySlots bytes).all (fun n => decide (n ≤ 7)) = true ∧ (entrySlots bytes).Nodup := by
  have hdrive : contentOk k bytes = contentOk .a bytes := by
    cases k with
    | a | b => rfl
    | s => exact absurd rfl hk
  rw [hdrive]
  simp [contentOk, and_assoc]

theorem failsCheck_content_iff :
    FailsCheck k bits bytes .content ↔ (!contentOk k bytes) = true := by
  rw [Bool.not_eq_true', Bool.eq_false_iff]
  by_cases hk : k = .s
  · subst hk
    rw [contentOk, Ne, decide_eq_true_iff]
    exact Iff.rfl
  · rw [Ne, contentOk_drive_iff hk, entrySlots_all_iff, entrySlots_nodup_iff]
    simp only [FailsCheck, if_neg hk, byteAt, lengthField, not_and_or, not_le, not_forall,
      exists_prop, ne_eq, not_not]

end

/-! ### The first check that fails (R164) -/

/-- The checks in the order of R164. -/
def allChecks : List CheckFail := [.framing, .length, .type, .crc, .content]

theorem mem_allChecks (e : CheckFail) : e ∈ allChecks := by cases e <;> decide

theorem allChecks_ordered : allChecks.Pairwise fun e f => e.code < f.code := by decide

/-- What a search through a list in ascending order of `key` finds: the member of least key. -/
theorem find?_eq_some_iff_least {α : Type} {key : α → Nat} {p : α → Bool} {xs : List α}
    (hord : xs.Pairwise fun x y => key x < key y) {x : α} (hx : x ∈ xs) :
    xs.find? p = some x ↔ p x = true ∧ ∀ y ∈ xs, key y < key x → p y = false := by
  induction xs with
  | nil => cases hx
  | cons z zs ih =>
    obtain ⟨hz, hzs⟩ := List.pairwise_cons.mp hord
    cases hp : p z with
    | true =>
      rw [List.find?_cons_of_pos hp, Option.some_inj]
      constructor
      · rintro rfl
        refine ⟨hp, fun y hy hlt => ?_⟩
        obtain rfl | hy := List.mem_cons.mp hy
        · omega
        · have := hz y hy
          omega
      · rintro ⟨-, hleast⟩
        obtain rfl | hx := List.mem_cons.mp hx
        · rfl
        · exact absurd (hleast z (.head _) (hz x hx)) (by simp [hp])
    | false =>
      rw [List.find?_cons_of_neg (by simp [hp])]
      obtain rfl | hx := List.mem_cons.mp hx
      · refine ⟨fun hfound => ?_, fun h => ?_⟩
        · exact absurd (List.find?_some hfound) (by simp [hp])
        · simp [hp] at h
      · simp [ih hzs hx, hp]

open Classical in
theorem acceptance_eq_find? (k : Link) (bits : Nat) (bytes : List Byte) :
    acceptance k bits bytes = allChecks.find? fun e => decide (FailsCheck k bits bytes e) := by
  have hcons : ∀ (e : CheckFail) (es : List CheckFail) (p : CheckFail → Prop),
      (e :: es).find? (fun e => decide (p e)) =
        if p e then some e else es.find? fun e => decide (p e) := fun e es p => by
    by_cases hp : p e <;> simp [hp]
  simp only [allChecks, hcons, List.find?_nil]
  refine ite_congr rfl (fun _ => rfl) fun _ => ?_
  refine ite_congr (propext failsCheck_length_iff.symm) (fun _ => rfl) fun hlen => ?_
  refine ite_congr (propext failsCheck_type_iff.symm) (fun _ => rfl) fun _ => ?_
  have htwo : 2 ≤ lengthField bytes := by
    rw [failsCheck_length_iff, minLength_eq] at hlen
    split_ifs at hlen <;> omega
  refine ite_congr (propext (failsCheck_crc_iff htwo).symm) (fun _ => rfl) fun _ => ?_
  exact ite_congr (propext failsCheck_content_iff.symm) (fun _ => rfl) fun _ => rfl

/-- A telegram passes when no check fails, and is refused by the first that does (R164). -/
theorem acceptance_eq_none_iff (k : Link) (bits : Nat) (bytes : List Byte) :
    acceptance k bits bytes = none ↔ ∀ e : CheckFail, ¬FailsCheck k bits bytes e := by
  rw [acceptance_eq_find?, List.find?_eq_none]
  simp [mem_allChecks]

theorem acceptance_eq_some_iff (k : Link) (bits : Nat) (bytes : List Byte) (e : CheckFail) :
    acceptance k bits bytes = some e ↔
      FailsCheck k bits bytes e ∧ ∀ f : CheckFail, f.code < e.code → ¬FailsCheck k bits bytes f := by
  rw [acceptance_eq_find?, find?_eq_some_iff_least allChecks_ordered (mem_allChecks e)]
  simp [mem_allChecks]

end Sys2Proof.Machine
end


section
/-! SUPPORT. A drive telegram (R164, R166 to R168, R175): its layout, and select going high on a drive link. -/

namespace Sys2Proof.Machine

/-- Each field of an entry at its own distance from the head of the telegram. -/
theorem readEntry_eq (bytes : List Byte) (i : Nat) :
    readEntry bytes i =
      { slot := ⟨(byteAt bytes (12 + 10 * i)).toNat % 8, by omega⟩
        cur := (byteAt bytes (13 + 10 * i)).getLsbD 0
        ang := (byteAt bytes (13 + 10 * i)).getLsbD 1
        idStar := (wordAt bytes (14 + 10 * i)).toInt
        iqStar := (wordAt bytes (16 + 10 * i)).toInt
        theta := wordAt bytes (18 + 10 * i)
        omega := (wordAt bytes (20 + 10 * i)).toInt } := by
  have hplace : ∀ m, 12 + 10 * i + m = 12 + m + 10 * i := fun m => by omega
  simp only [readEntry, hplace]

/-- The telegram's fields by their bytes (R175). -/
theorem readTelegram_fields (bytes : List Byte) :
    let b : Nat → Byte := fun i => bytes.getD i 0#8
    let word : Nat → Word := fun i => BitVec.ofNat 16 (256 * (b i).toNat + (b (i + 1)).toNat)
    let tel := readTelegram bytes
    tel.seq = b 2 ∧ tel.request = ⟨b 4, b 5, b 6, b 7, word 8, word 10⟩ ∧
      tel.entries.length = (b 3).toNat ∧
      ∀ i e, tel.entries[i]? = some e →
        ((b (12 + 10 * i)).toNat ≤ 7 → e.slot.val = (b (12 + 10 * i)).toNat) ∧
        e.cur = (b (13 + 10 * i)).getLsbD 0 ∧ e.ang = (b (13 + 10 * i)).getLsbD 1 ∧
        e.idStar = (word (14 + 10 * i)).toInt ∧ e.iqStar = (word (16 + 10 * i)).toInt ∧
        e.theta = word (18 + 10 * i) ∧ e.omega = (word (20 + 10 * i)).toInt := by
  intro b word tel
  have hword : ∀ i, word i = wordAt bytes i := fun i => (wordAt_eq bytes i).symm
  refine ⟨rfl, ?_, by simp [tel, readTelegram, byteAt, b], fun i e he => ?_⟩
  · simp only [hword]
    rfl
  · have hentry : ((List.range (b 3).toNat).map (readEntry bytes))[i]? = some e := he
    rw [List.getElem?_map, Option.map_eq_some_iff] at hentry
    obtain ⟨n, hn, rfl⟩ := hentry
    obtain ⟨-, rfl⟩ : n < (b 3).toNat ∧ i = n := by
      obtain ⟨hi, hin⟩ := List.getElem?_eq_some_iff.mp hn
      rw [List.getElem_range] at hin
      exact ⟨by simpa [← hin] using hi, hin⟩
    simp only [hword]
    rw [readEntry_eq]
    exact ⟨fun hslot => Nat.mod_eq_of_lt (Nat.lt_succ_of_le hslot), rfl, rfl, rfl, rfl, rfl, rfl⟩

variable {s : State} {d : DriveLink}

/-! ### The answers of a drive link (R166 to R168) -/

theorem State.driveTelegram_refused {bits : Nat} {bytes : List Byte} {e : CheckFail}
    (h : acceptance d.toLink bits bytes = some e) :
    s.driveTelegram d bits bytes =
      (({ s with globalSet := s.globalSet ||| (linkFlag d.toLink).bit }).setPort d.toLink
        { s.port d.toLink with failed := true }).setDrive d
          { s.drive d with errs := (s.drive d).errs.set e } := by
  simp only [State.driveTelegram, h]
  rfl

theorem State.driveTelegram_accepted {bits : Nat} {bytes : List Byte}
    (h : acceptance d.toLink bits bytes = none) :
    s.driveTelegram d bits bytes =
      (s.setPort d.toLink { s.port d.toLink with failed := false }).setDrive d
        ((s.drive d).accept (readTelegram bytes)) := by
  simp only [State.driveTelegram, h]
  rfl

/-! ### Select going high (R163, R173) -/

/-- The records of a link's port and of a drive link do not meet. -/
theorem State.setDrive_setPort (x : DriveRec) (k : Link) (q : Port) :
    (s.setDrive d x).setPort k q = (s.setPort k q).setDrive d x := rfl

/-- The port is closed after what was received has changed it and the drive link's record. -/
theorem State.deselect_answered (x : DriveRec) (k : Link) (q : Port) :
    let u := (s.setPort k q).setDrive d x
    u.setPort k (u.port k).deselect = (s.setPort k q.deselect).setDrive d x := by
  intro u
  have hport : u.port k = q := (State.port_setPort s k k q).trans (if_pos rfl)
  rw [hport, State.setDrive_setPort, State.setPort_setPort]

/-- A link reset of a drive link, alone owed, as its select goes high (R150, R173). -/
theorem State.driveEnd_owed (hsel : (s.port d.toLink).selLow = true)
    (howed : s.agenda = [.linkReset d.toLink]) (hcount : (s.port d.toLink).resetCount = 200)
    (take : State → Nat → List Byte → State) :
    s.transferEnd d.toLink take =
      (({ s with agenda := [] }).setPort d.toLink (s.port d.toLink).dropTransfer.deselect).setDrive d
        (s.drive d).afterReset := by
  have hdropped : (s.linkResetNow d.toLink).port d.toLink = (s.port d.toLink).dropTransfer := by
    rw [State.linkResetNow_drive, State.setDrive_port, State.port_setPort, if_pos rfl]
  have hreset : ({ s.linkResetNow d.toLink with agenda := [] } : State) =
      (({ s with agenda := [] }).setPort d.toLink (s.port d.toLink).dropTransfer).setDrive d
        (s.drive d).afterReset := by
    rw [State.linkResetNow_drive]
    rfl
  rw [State.transferEnd_owed hsel howed hcount hdropped, hreset, State.setDrive_setPort,
    State.setPort_setPort]

/-- Settles O29: the CRC, the checks and the layout, and select going high with a reset owed, with nothing
received, and with each of the two answers to a telegram. -/
theorem driveTelegramActs : Obligations.DriveTelegramActs := by
  refine ⟨fun k => by cases k <;> rfl, fun seed => ⟨rfl, crc_cons seed⟩,
    fun k bits bytes => ⟨acceptance_eq_none_iff k bits bytes, acceptance_eq_some_iff k bits bytes⟩,
    readTelegram_fields, fun s d hsel => ?_⟩
  intro p x tel closed
  refine ⟨fun howed => ?_, fun howed hcount => ?_⟩
  · have hend : exec (.driveCommandTelegram d) s = .next _ :=
      congrArg Host.Outcome.next (State.transferEnd_not_owed hsel howed fun t => t.driveTelegram d)
    rw [hend]
    refine ⟨fun hrx => ?_, fun e hrx hfail => ?_, fun hrx hpass => ?_⟩
    · rw [if_neg hrx]
      rfl
    · rw [if_pos hrx, State.driveTelegram_refused hfail, State.deselect_answered]
      rfl
    · rw [if_pos hrx, State.driveTelegram_accepted hpass, State.deselect_answered]
      rfl
  · exact congrArg Host.Outcome.next (State.driveEnd_owed hsel howed hcount fun t => t.driveTelegram d)

end Sys2Proof.Machine
end


section
/-! SUPPORT. Start-up (R177, R178) and the STORE (R170, R183): the pages read in LOADING, the answers of STORE,
and the pages programmed one after another. -/

namespace Sys2Proof.Machine

variable {s : State}

/-! ### The pages read in LOADING (R178) -/

/-- Settles O5: the release counts from 0, and a page is read at its instant, or at once when that is past. -/
theorem loadingReadsPages : Obligations.LoadingReadsPages := by
  intro s
  refine ⟨fun hm => congrArg Host.Outcome.next (if_pos hm), fun hm ha hp => ?_, fun hm hp => ?_⟩
  · have hinstant : s.pageInstant = 25000 * (s.loadPage + 1) := Nat.mul_comm _ _
    refine congrArg Host.Outcome.next ?_
    rw [State.loadPageRead, if_pos hm, dif_pos hp, State.arrive_of_empty ha, hinstant]
  · refine congrArg Host.Outcome.next ?_
    rw [State.loadPageRead, if_pos hm, dif_neg (not_lt.mpr hp)]

/-! ### STORE served (R183) -/

/-- A STORE that is refused is answered like any other request. -/
theorem State.Serves.serveStore_refused {d : DriveLink} {r : Request} {rest : List Request}
    {ws : List Work} (h : s.Serves d r rest ws) {a : Answer} (ha : s.storeRefusal = some a) :
    s.serveStore d = answered d r (s.dequeued d rest, a) := by
  rw [← h.serveWith fun _ _ t => (t, a), State.serveStore, h.queue]
  simp only [ha]

/-- The image is copied with its CRC in its last two bytes (R183, step 1). -/
theorem Image.sealed_eq (img : Image) :
    img.sealed = img.set 255 (crc 0xFFFF#16 (bytesOfWords (img.toList.take 255))) := by
  rw [Image.sealed, Image.crcOf_eq]

/-- A STORE that is taken stays at the head of its queue, in flight (R170, R183). -/
theorem State.Serves.serveStore_taken {d : DriveLink} {r : Request} {rest : List Request}
    {ws : List Work} (h : s.Serves d r rest ws) (ha : s.storeRefusal = none) :
    s.serveStore d =
      ({ s with storeOp := some ⟨d, s.image.sealed, 0⟩, nv := { s.nv with mark := false } }).setDrive d
        { s.drive d with response := responseOf r (answer .inProgress 0 0), hold := .inFlight } := by
  rw [State.serveStore, h.queue]
  simp only [ha]

/-- Settles O46: STORE is refused for its mode, then for one in flight, and is otherwise taken. -/
theorem storeAnswers : Obligations.StoreAnswers := by
  intro s d r rest ws hs hk u
  have hserved : exec (.store d) s = (s.serveStore d).thenWorks ws :=
    congrArg Host.Outcome.next (State.takeServed_front hs (by rw [hk]; rfl) _)
  rw [hserved]
  refine ⟨fun hm => ?_, fun hm hop => ?_, fun hm hop => ?_⟩
  · have ha : s.storeRefusal = some (answer .wrongMode 0 0) := if_pos (by simp [hm])
    rw [hs.serveStore_refused ha]
    rfl
  · have ha : s.storeRefusal = some (answer .wrongState 0 0) :=
      (if_neg (not_not.mpr hm)).trans (if_pos hop)
    rw [hs.serveStore_refused ha]
    rfl
  · have ha : s.storeRefusal = none :=
      (if_neg (not_not.mpr hm)).trans (if_neg (by simp [hop]))
    rw [hs.serveStore_taken ha, Image.sealed_eq]
    rfl

/-! ### A page programmed (R183) -/

/-- The STORE whose request stands at the head of its queue completes with the answer `a` (R170). -/
theorem State.storeComplete_of_queue {d : DriveLink} {r : Request} {rest : List Request}
    (hq : (s.drive d).queue = r :: rest) (a : Answer) :
    s.storeComplete d a =
      ({ s with storeOp := none }).setDrive d
        { s.drive d with queue := rest, response := responseOf r a, hold := .reporting } := by
  rw [State.storeComplete, hq]

/-- Settles O7: the page fails to verify, or is followed by the next, or is the last. -/
theorem pageDoneAdvancesStore : Obligations.PageDoneAdvancesStore := by
  intro s op readBack r rest hop hq nv final
  have hexec : exec (.storePageDone readBack) s = .next (s.pageDone op readBack) := by
    show Host.Outcome.next (s.storePageDone readBack) = _
    rw [State.storePageDone, hop]
  rw [hexec]
  refine ⟨fun hbad => congrArg Host.Outcome.next ?_, fun hgood h => congrArg Host.Outcome.next ?_,
    fun hgood h => congrArg Host.Outcome.next ?_⟩
  · rw [State.pageDone, if_neg hbad]
    exact State.storeComplete_of_queue (s := { s with nv := nv }) hq _
  · rw [State.pageDone, if_pos hgood, dif_pos (by omega)]
  · rw [State.pageDone, if_pos hgood, dif_neg (by omega)]
    exact State.storeComplete_of_queue
      (s := { s with nv := { nv with mark := true }, imageBad := false }) hq _

end Sys2Proof.Machine
end


section
/-! SUPPORT. Permissions formed while no slot is active (R12, R138), and ENTER_SETUP (R58, R182). -/

namespace Sys2Proof.Machine

variable {s : State}

/-! ### Permissions formed while no slot is active (R12) -/

/-- A slot that is not active takes its permission and limit, and nothing moves (R12). -/
theorem Slot.formed_of_not_active {x : Slot} (h : x.state.isActive = false) (stop : Nat)
    (f : Permission × Nat) : x.formed stop f = { x with perm := f.1, lPerm := f.2 } := by
  unfold Slot.formed
  cases hx : x.state <;> simp [hx, SlotState.isActive] at h ⊢

theorem State.movePermission_of_not_active {i : SlotId} (h : (s.slot i).state.isActive = false)
    (q : Permission) : s.movePermission i q = s := by
  unfold State.movePermission
  cases hx : (s.slot i).state <;> simp [hx, SlotState.isActive] at h ⊢

/-- The permission of a slot that is not active touches no leg. -/
theorem State.reformSlot_leg_of_not_active {i : SlotId} (h : (s.slot i).state.isActive = false)
    (l : LegId) : (s.reformSlot i).leg l = s.leg l := by
  unfold State.reformSlot
  dsimp only
  split
  · rfl
  · rw [State.movePermission_of_not_active (by simpa using h), State.setSlot_leg]

/-- While no slot is active the permissions touch no leg. -/
theorem State.reformPermissions_leg_of_none_active (h : ∀ i, (s.slot i).state.isActive = false)
    (l : LegId) : s.reformPermissions.leg l = s.leg l := by
  unfold State.reformPermissions
  generalize allSlots = is
  induction is generalizing s with
  | nil => rfl
  | cons i is ih =>
    have hnext : ∀ j, ((s.reformSlot i).slot j).state.isActive = false := fun j => by
      rw [State.reformSlot_slot]
      split
      · next hij => rw [hij, Slot.formed_of_not_active (h j)]; exact h j
      · exact h j
    rw [List.foldl_cons, ih hnext, State.reformSlot_leg_of_not_active (h i)]

/-- Outside OPERATE every permission that is formed is OFF (R138). -/
theorem State.formPermission_of_not_operate (h : s.mode ≠ .operate) (i : SlotId) :
    s.formPermission i = (.off, 0) :=
  State.formPermission_of_not_permitting fun hp => h hp.mode

/-! ### ENTER_SETUP (R182) -/

/-- A served request of ENTER_SETUP is answered by `doEnterSetup`. -/
theorem State.Serves.enterSetup {d : DriveLink} {r : Request} {rest : List Request} {ws : List Work}
    (h : s.Serves d r rest ws) (hk : r.kind = 11#8) :
    exec (.enterSetup d) s = (answered d r (doEnterSetup d r (s.dequeued d rest))).thenWorks ws :=
  congrArg Host.Outcome.next (h.takeServed (by rw [hk]; rfl) doEnterSetup)

/-- The slot in use that is named is the lowest. -/
theorem State.firstInUse_eq_some {i : SlotId} (hi : (s.slot i).state ≠ .parked)
    (hlow : ∀ j, j < i → (s.slot j).state = .parked) : s.firstInUse = some i := by
  refine (find?_eq_some_iff_least (key := Fin.val) (List.pairwise_lt_finRange 8)
    (List.mem_finRange i)).mpr ⟨bne_iff_ne.mpr hi, fun j _ hj => ?_⟩
  simp [hlow j hj]

theorem State.firstInUse_eq_none (h : ∀ i, (s.slot i).state = .parked) : s.firstInUse = none :=
  List.find?_eq_none.mpr fun i _ => by simp [h i]

/-- The part as it enters SETUP, before the permissions are formed. -/
def State.setupEntered (s : State) : State := { s.stopCarriers with mode := .setup }

/-- Every shadow is emptied, and of a PHASE leg the active compare as well (R58). -/
theorem State.setupEntered_leg (l : LegId) :
    s.setupEntered.leg l =
      { s.leg l with
        shadow := none
        active := if (s.leg l).func.heldByToff = true ∧ (s.leg l).func ≠ .forced then none
          else (s.leg l).active } := by
  have hmode : ∀ t : State, ({ t with mode := .setup } : State).leg l = t.leg l := fun _ => rfl
  rw [State.setupEntered, hmode, State.stopCarriers, State.leg_mapLegs]
  cases hf : (s.leg l).func <;> simp [hf, LegFunc.heldByToff]

theorem State.setupEntered_slot (i : SlotId) : s.setupEntered.slot i = s.slot i := by
  simp only [State.setupEntered, State.stopCarriers, State.mapLegs, State.slot]

/-- Besides the legs only the mode is new. -/
theorem State.setupEntered_sameRest : ({ s with mode := .setup } : State).SameRest s.setupEntered := by
  unfold State.setupEntered State.stopCarriers State.mapLegs
  constructor <;> rfl

/-- In SETUP each slot's permission is OFF; one that is PARKED changes in nothing else. -/
theorem State.setupEntered_reformed_slot {i : SlotId} (h : (s.slot i).state = .parked) :
    s.setupEntered.reformPermissions.slot i = { s.slot i with perm := .off, lPerm := 0 } := by
  have hoff : s.setupEntered.formPermission i = (.off, 0) :=
    State.formPermission_of_not_operate (fun hm => by cases hm) i
  rw [State.reformPermissions_slot, State.setupEntered_slot, hoff,
    Slot.formed_of_not_active (by rw [h]; rfl)]

/-- Settles O44: ENTER_SETUP is answered in SETUP as it stands, refused for the lowest slot in use, and
otherwise taken. -/
theorem enterSetupAnswers : Obligations.EnterSetupAnswers := by
  intro s d r rest ws hs hk u
  rw [hs.enterSetup hk]
  refine ⟨fun hm => ?_, fun hm => ⟨fun i hi hlow => ?_, fun hparked => ?_⟩⟩
  · have hdone : doEnterSetup d r u = (u, answer .done 0 0) := if_pos hm
    rw [hdone]
    rfl
  · have hmode : u.mode ≠ .setup := fun h => by cases hm.symm.trans h
    have huse : u.firstInUse = some i := State.firstInUse_eq_some (s := u) hi hlow
    have hrefused : doEnterSetup d r u = (u, answer .slotsInUse i.val 0) := by
      simp only [doEnterSetup, if_neg hmode, huse]
    rw [hrefused, answered_answer, toWord_natCast]
    rfl
  · have hmode : u.mode ≠ .setup := fun h => by cases hm.symm.trans h
    have huse : u.firstInUse = none := State.firstInUse_eq_none (s := u) hparked
    have htaken : doEnterSetup d r u = (u.setupEntered.reformPermissions, answer .done 2 0) := by
      simp only [doEnterSetup, if_neg hmode, huse]
      rfl
    have hrest := u.setupEntered_sameRest.trans u.setupEntered.reformPermissions_sameRest
    have hnone : ∀ i, (u.setupEntered.slot i).state.isActive = false := fun i => by
      rw [State.setupEntered_slot, State.dequeued_slot, hparked i]
      rfl
    have htwo : toWord 2 = 2#16 := by decide
    have hzero : toWord 0 = 0#16 := by decide
    rw [htaken, answered_answer, htwo, hzero]
    refine ⟨u.setupEntered.reformPermissions, rfl, hrest.mode, fun g => ?_, fun l => ?_, fun i => ?_,
      hrest.groups, hrest.image, hrest.signature, hrest.cyc, hrest.dc, hrest.safety, hrest.ports,
      hrest.drives, hrest.nv, hrest.storeOp, hrest.globalSet⟩
    · rw [State.carrierValue, hrest.mode]
      rfl
    · rw [State.reformPermissions_leg_of_none_active hnone, State.setupEntered_leg]
      rfl
    · exact State.setupEntered_reformed_slot (s := u) (hparked i)

end Sys2Proof.Machine
end


section
/-! SUPPORT. Validation (R182): each check as the search it is, what it names, and the first that fails. -/

namespace Sys2Proof.Machine

variable (img : Image) (i : SlotId) (c n : Nat)

/-! ### The checks one by one (R182) -/

theorem Image.seats_isEmpty_eq_false : (img.seats i).isEmpty = false ↔ ∃ l, img.Names i l := by
  rw [List.isEmpty_eq_false_iff_exists_mem]
  constructor
  · rintro ⟨q, hq⟩
    exact ⟨q.leg, q.phase, q.index, (img.mem_seats i q).mp hq⟩
  · rintro ⟨l, ph, ix, hl⟩
    exact ⟨⟨l, ph, ix⟩, (img.mem_seats i ⟨l, ph, ix⟩).mpr hl⟩

/-- The legs of a leg set on a phase are the PHASE legs naming the slot there. -/
theorem Image.phaseCount_eq (ph : Phase) : img.phaseCount i ph = img.legsOn i ph := by
  rw [Image.phaseCount, Image.seats, ← List.countP_eq_length_filter, List.countP_filterMap]
  refine List.countP_congr fun l _ => ?_
  cases img.legFunc l with
  | phase m q ix => by_cases hm : m = i <;> simp [hm]
  | unused | chopper | forced => simp

theorem Image.badPhaseCount_iff :
    img.badPhaseCount i = true ↔
      (∃ l, img.Names i l) ∧ ∃ ph, img.legsOn i ph = 0 ∨ 2 < img.legsOn i ph := by
  have hphases : ∀ p : Phase → Bool, [Phase.u, .v, .w].any p = true ↔ ∃ ph, p ph = true := fun p =>
    ⟨fun h => (List.any_eq_true.mp h).imp fun _ hq => hq.2,
      fun ⟨ph, hph⟩ => List.any_eq_true.mpr ⟨ph, by cases ph <;> simp, hph⟩⟩
  rw [Image.badPhaseCount, Bool.and_eq_true, Bool.not_eq_true', Image.seats_isEmpty_eq_false, hphases]
  simp [Image.phaseCount_eq]

/-- Two legs of the set lie in different groups. -/
theorem Image.badGroup_iff :
    img.badGroup i = true ↔ ∃ a b, img.Names i a ∧ img.Names i b ∧ groupOf a ≠ groupOf b := by
  have hnames : ∀ l, img.Names i l ↔ ∃ q ∈ img.seats i, q.leg = l := fun l =>
    ⟨fun ⟨ph, ix, hl⟩ => ⟨⟨l, ph, ix⟩, (img.mem_seats i _).mpr hl, rfl⟩,
      fun ⟨q, hq, hl⟩ => ⟨q.phase, q.index, hl ▸ (img.mem_seats i q).mp hq⟩⟩
  simp only [hnames, Image.badGroup, Image.slotGroup, List.any_eq_true, bne_iff_ne, ne_eq]
  cases img.seats i with
  | nil => simp
  | cons q qs =>
    simp only [List.head?_cons, Option.map_some, Option.some.injEq]
    constructor
    · rintro ⟨t, ht, hne⟩
      exact ⟨t.leg, q.leg, ⟨t, ht, rfl⟩, ⟨q, .head _, rfl⟩, hne⟩
    · rintro ⟨a, b, ⟨x, hx, rfl⟩, ⟨y, hy, rfl⟩, hne⟩
      by_cases hxq : groupOf x.leg = groupOf q.leg
      · exact ⟨y, hy, fun hyq => hne (hxq.trans hyq.symm)⟩
      · exact ⟨x, hx, hxq⟩

theorem Image.badPartner_iff :
    img.badPartner i = true ↔ ∃ j, img.partner i = some j ∧
      (i = j ∨ img.partner j ≠ some i ∨ img.slotGroup i = none ∨
        img.slotGroup i ≠ img.slotGroup j) := by
  unfold Image.badPartner
  cases img.partner i with
  | none => simp
  | some j =>
    simp only [Option.some.injEq, exists_eq_left, Bool.or_eq_true, decide_eq_true_eq, bne_iff_ne,
      Option.isNone_iff_eq_none, or_assoc, eq_comm (a := j)]

theorem Image.badDcOrder_iff :
    img.badDcOrder = true ↔
      ¬(img.vUv < img.vChOff ∧ img.vChOff < img.vChOn ∧ img.vChOn < img.vRg ∧ img.vRg < img.vOv) ∨
        img.vUv < 320 := by
  simp only [Image.badDcOrder, Bool.or_eq_true, Bool.not_eq_true', Bool.eq_false_iff, ne_eq,
    Bool.and_eq_true, decide_eq_true_eq, and_assoc]

theorem Image.badCarrier_iff (g : GroupId) :
    img.badCarrier g = true ↔ img.hp g < 4 * img.mp g ∨ img.hp g < 4 * img.dt g := by
  simp [Image.badCarrier]

/-! ### Pairs of alike legs (R182, log 19) -/

theorem Image.mem_duplicatePairs (a b : LegId) : (a, b) ∈ img.duplicatePairs ↔ img.Alike a b := by
  simp only [Image.duplicatePairs, List.mem_flatMap, List.mem_filterMap, List.mem_finRange, true_and,
    Image.Alike]
  constructor
  · rintro ⟨x, y, h⟩
    split at h
    · next m ph ix hx =>
      split at h
      · next hxy =>
        cases h
        exact ⟨hxy.1, m, ph, ix, hx, hxy.2 ▸ hx⟩
      · cases h
    · cases h
  · rintro ⟨hlt, m, ph, ix, ha, hb⟩
    exact ⟨a, b, by simp [ha, hb, hlt]⟩

/-- The lower leg decides which of two pairs comes first, and then the higher one. -/
def PairBefore (p q : LegId × LegId) : Prop := p.1 < q.1 ∨ p.1 = q.1 ∧ p.2 < q.2

theorem Image.duplicatePairs_ordered : img.duplicatePairs.Pairwise PairBefore := by
  have hpair : ∀ {a b : LegId} {p : LegId × LegId},
      (match img.legFunc a with
        | .phase _ _ _ => if a < b ∧ img.legFunc a = img.legFunc b then some (a, b) else none
        | _ => none) = some p → p = (a, b) := by
    intro a b p h
    split at h
    · split at h <;> cases h
      rfl
    · cases h
  unfold Image.duplicatePairs
  rw [List.pairwise_flatMap]
  refine ⟨fun a _ => ?_, (List.pairwise_lt_finRange 24).imp fun hlt p hp q hq => ?_⟩
  · rw [List.pairwise_filterMap]
    refine (List.pairwise_lt_finRange 24).imp fun hlt p hp q hq => ?_
    rw [hpair hp, hpair hq]
    exact .inr ⟨rfl, hlt⟩
  · obtain ⟨b, -, hp⟩ := List.mem_filterMap.mp hp
    obtain ⟨b', -, hq⟩ := List.mem_filterMap.mp hq
    rw [hpair hp, hpair hq]
    exact .inl hlt

/-! ### What each check names (R182) -/

/-- The number that check `c` names when it fails. -/
def Image.named (img : Image) (c : Nat) : Option Nat :=
  match c with
  | 1 => ((List.finRange 8).find? img.badPhaseCount).map Fin.val
  | 2 => img.duplicatePairs.head?.map fun p => p.2.val
  | 3 => ((List.finRange 8).find? img.badGroup).map Fin.val
  | 4 => ((List.finRange 8).find? img.badPartner).map Fin.val
  | 5 => if img.badDcOrder then some 0 else none
  | 6 => if ¬img.tWarn < img.tTrip then some 0 else none
  | 7 => ((List.finRange 4).find? img.badCarrier).map Fin.val
  | _ => none

/-- Validation takes the checks in order, to the first that fails. -/
theorem Image.validate_eq :
    img.validate = [1, 2, 3, 4, 5, 6, 7].findSome? fun c => (img.named c).map fun n => (c, n) := by
  unfold Image.validate
  simp only [List.findSome?_cons, List.findSome?_nil, Image.named]
  cases (List.finRange 8).find? img.badPhaseCount <;> [skip; rfl]
  cases img.duplicatePairs.head? <;> [skip; rfl]
  cases (List.finRange 8).find? img.badGroup <;> [skip; rfl]
  cases (List.finRange 8).find? img.badPartner <;> [skip; rfl]
  cases img.badDcOrder <;> [skip; rfl]
  by_cases ht : img.tWarn < img.tTrip
  · cases (List.finRange 4).find? img.badCarrier <;> simp [ht]
  · simp [ht]

/-- What a check that names `o` says of the numbers it may name. -/
structure LeastOf (P : Nat → Prop) (o : Option Nat) : Prop where
  none : o = none → ∀ n, ¬P n
  some : ∀ n, o = some n → P n ∧ ∀ m, m < n → ¬P m

/-- A search through the numbers in ascending order names the least. -/
theorem leastOf_find? {k : Nat} (p : Fin k → Bool) :
    LeastOf (fun n => ∃ j : Fin k, j.val = n ∧ p j = true) (((List.finRange k).find? p).map Fin.val) := by
  refine ⟨fun h n => ?_, fun n h => ?_⟩
  · rintro ⟨j, -, hj⟩
    exact List.find?_eq_none.mp (Option.map_eq_none_iff.mp h) j (List.mem_finRange j) hj
  · obtain ⟨j, hj, rfl⟩ := Option.map_eq_some_iff.mp h
    obtain ⟨hp, hleast⟩ := (find?_eq_some_iff_least (key := Fin.val) (List.pairwise_lt_finRange k)
      (List.mem_finRange j)).mp hj
    refine ⟨⟨j, rfl, hp⟩, fun m hm => ?_⟩
    rintro ⟨x, rfl, hx⟩
    rw [hleast x (List.mem_finRange x) hm] at hx
    cases hx

/-- A check on the whole part names 0. -/
theorem leastOf_ite (b : Prop) [Decidable b] :
    LeastOf (fun n => n = 0 ∧ b) (if b then some 0 else none) := by
  by_cases hb : b
  · rw [if_pos hb]
    exact ⟨nofun, fun n h => ⟨⟨(Option.some.inj h).symm, hb⟩, fun m hm => by cases h; omega⟩⟩
  · rw [if_neg hb]
    exact ⟨fun _ _ h => hb h.2, nofun⟩

theorem LeastOf.congr {P Q : Nat → Prop} {o : Option Nat} (h : LeastOf P o) (hpq : ∀ n, Q n ↔ P n) :
    LeastOf Q o := by
  rw [show Q = P from funext fun n => propext (hpq n)]
  exact h

/-- Each check but that of alike legs names the least of its numbers (R182). -/
theorem Image.named_leastOf (hc : c ≠ 2) : LeastOf (img.Fails c) (img.named c) := by
  unfold Image.named
  split
  · exact (leastOf_find? img.badPhaseCount).congr fun n => by simp [Image.Fails, img.badPhaseCount_iff]
  · exact absurd rfl hc
  · exact (leastOf_find? img.badGroup).congr fun n => by simp [Image.Fails, img.badGroup_iff]
  · exact (leastOf_find? img.badPartner).congr fun n => by simp [Image.Fails, img.badPartner_iff]
  · exact (leastOf_ite _).congr fun n => by simp only [Image.Fails, img.badDcOrder_iff]; simp
  · exact (leastOf_ite _).congr fun n => by simp [Image.Fails]
  · exact (leastOf_find? img.badCarrier).congr fun n => by simp [Image.Fails, img.badCarrier_iff]
  · exact ⟨fun _ n h => by simp_all [Image.Fails], nofun⟩

theorem Image.fails_alike_iff : img.Fails 2 n ↔ ∃ a b, img.Alike a b ∧ b.val = n := by
  simp [Image.Fails]

theorem Image.named_alike_eq_none (h : img.named 2 = none) : ¬img.Fails 2 n := by
  rw [img.fails_alike_iff]
  rintro ⟨a, b, hab, -⟩
  have hempty := List.head?_eq_none_iff.mp (Option.map_eq_none_iff.mp h)
  rw [← img.mem_duplicatePairs, hempty] at hab
  cases hab

/-- Of alike legs the first pair is named, by its higher leg (log 19). -/
theorem Image.named_alike_eq_some (h : img.named 2 = some n) :
    ∃ a b, img.Alike a b ∧ b.val = n ∧ ∀ a' b', img.Alike a' b' → a < a' ∨ a = a' ∧ b ≤ b' := by
  obtain ⟨⟨a, b⟩, hhead, hb⟩ := Option.map_eq_some_iff.mp h
  obtain ⟨rest, hlist⟩ := List.head?_eq_some_iff.mp hhead
  have hord := img.duplicatePairs_ordered
  rw [hlist] at hord
  refine ⟨a, b, (img.mem_duplicatePairs a b).mp (hlist ▸ .head _), hb, fun a' b' hab => ?_⟩
  rw [← img.mem_duplicatePairs, hlist] at hab
  obtain heq | htail := List.mem_cons.mp hab
  · cases heq
    exact .inr ⟨rfl, le_rfl⟩
  · exact ((List.pairwise_cons.mp hord).1 _ htail).imp_right fun hsame => ⟨hsame.1, hsame.2.le⟩

/-! ### The first check that fails (R182) -/

theorem Image.named_eq_none (h : img.named c = none) : ¬img.Fails c n := by
  by_cases hc : c = 2
  · subst hc
    exact img.named_alike_eq_none n h
  · exact (img.named_leastOf c hc).none h n

theorem Image.fails_of_named (h : img.named c = some n) : img.Fails c n := by
  by_cases hc : c = 2
  · subst hc
    obtain ⟨a, b, hab, hb, -⟩ := img.named_alike_eq_some n h
    exact (img.fails_alike_iff n).mpr ⟨a, b, hab, hb⟩
  · exact ((img.named_leastOf c hc).some n h).1

theorem Image.named_of_not_check (hc : c ∉ [1, 2, 3, 4, 5, 6, 7]) : img.named c = none := by
  unfold Image.named
  split <;> simp_all

/-- An image validates when no check fails (R182). -/
theorem Image.validate_eq_none_iff : img.validate = none ↔ ∀ c n, ¬img.Fails c n := by
  rw [Image.validate_eq, List.findSome?_eq_none_iff]
  constructor
  · intro h c n
    refine img.named_eq_none c n ?_
    by_cases hc : c ∈ [1, 2, 3, 4, 5, 6, 7]
    · exact Option.map_eq_none_iff.mp (h c hc)
    · exact img.named_of_not_check c hc
  · intro h c _
    rw [Option.map_eq_none_iff, Option.eq_none_iff_forall_ne_some]
    exact fun n hn => h c n (img.fails_of_named c n hn)

/-- The check that refuses an image names its number, and those before it pass (R182). -/
theorem Image.validate_eq_some (h : img.validate = some (c, n)) :
    img.named c = some n ∧ ∀ c' m, c' < c → ¬img.Fails c' m := by
  rw [Image.validate_eq, List.findSome?_eq_some_iff] at h
  obtain ⟨before, c₀, after, hsplit, hnamed, hpass⟩ := h
  obtain ⟨n₀, hn, heq⟩ := Option.map_eq_some_iff.mp hnamed
  cases heq
  refine ⟨hn, fun c' m hlt => img.named_eq_none c' m ?_⟩
  by_cases hc : c' ∈ [1, 2, 3, 4, 5, 6, 7]
  · have hord : (before ++ c :: after).Pairwise (· < ·) := hsplit ▸ by decide
    rw [hsplit, List.mem_append] at hc
    obtain hb | ha := hc
    · exact Option.map_eq_none_iff.mp (hpass c' hb)
    · obtain rfl | ha := List.mem_cons.mp ha
      · omega
      · have := (List.pairwise_cons.mp (List.pairwise_append.mp hord).2.1).1 c' ha
        omega
  · exact img.named_of_not_check c' hc

end Sys2Proof.Machine
end


section
/-! SUPPORT. Entering OPERATE (R2, R58, R136): the slot fields derived and the carriers started, the signatures
compared and the permissions formed; LEAVE_SETUP (R70, R182). -/

namespace Sys2Proof.Machine

variable (s : State) (i : SlotId) (l : LegId) (g : GroupId)

/-! ### The slot fields derived and the carriers started (R2, R58) -/

/-- The slots derived from the working image, and the carriers started. -/
def State.derived (s : State) : State := s.deriveSlots.startCarriers

theorem State.derived_slot :
    s.derived.slot i =
      { s.slot i with
        seats := s.image.seats i, group := s.image.slotGroup i, partner := s.image.partner i } := by
  rw [State.derived, State.startCarriers, State.mapGroups_slot, State.deriveSlots, State.slot_mapSlots]

theorem State.derived_leg : s.derived.leg l = s.leg l := by
  rw [State.derived, State.startCarriers, State.mapGroups_leg, State.deriveSlots, State.mapSlots_leg]

theorem State.derived_group : s.derived.group g = { s.group g with periodStart := s.now } := by
  rw [State.derived, State.startCarriers, State.group_mapGroups, State.deriveSlots, State.mapSlots_group,
    State.mapSlots_now]

theorem State.derived_sameRest : ({ s with groups := s.derived.groups } : State).SameRest s.derived := by
  constructor <;> simp [State.derived, State.startCarriers, State.deriveSlots]

/-- The fields derived from an image that passes the checks are those of R2. -/
theorem Image.derives_of_validate {img : Image} {x : Slot} (h : img.validate = none)
    (hs : x.seats = img.seats i) (hg : x.group = img.slotGroup i) (hp : x.partner = img.partner i) :
    img.Derives i x := by
  refine Image.derives_of_one_group hs hg hp ?_
  rw [Bool.eq_false_iff, Ne, img.badGroup_iff]
  exact fun hbad => img.validate_eq_none_iff.mp h 3 i.val (.inr (.inr (.inl ⟨rfl, i, rfl, hbad⟩)))

/-! ### The signatures compared, the permissions formed (R136, R138) -/

/-- The signatures compared, once a fresh telegram has been seen. -/
def State.compared (s : State) : State :=
  { s with
    safety := { s.safety with
      mismatch := if s.safety.freshSeen then decide (s.safety.expectedSig ≠ s.signature)
        else s.safety.mismatch }
    globalSet := s.globalSet |||
      if s.safety.freshSeen = true ∧ s.safety.expectedSig ≠ s.signature then 0x0020#16 else 0#16 }

theorem State.compareSignature_eq_compared : s.compareSignature = s.compared := by
  rw [State.compareSignature_eq, State.compared]
  cases hf : s.safety.freshSeen with
  | true => simp
  | false => cases s; simp

/-- A slot's derived fields and its permission, once the permissions have been formed. -/
theorem State.reformPermissions_derived :
    (s.reformPermissions.slot i).seats = (s.slot i).seats ∧
      (s.reformPermissions.slot i).group = (s.slot i).group ∧
      (s.reformPermissions.slot i).partner = (s.slot i).partner := by
  rw [State.reformPermissions_slot]
  obtain ⟨hpartner, -, -, hseats, -, -, -, hgroup⟩ :=
    (s.slot i).formed_keeps (s.image.stopCycles (s.leadOf i)) (s.formPermission i)
  exact ⟨hseats, hgroup, hpartner⟩

/-! ### LEAVE_SETUP (R182) -/

/-- The part in OPERATE with its new signature, before the signatures are compared. -/
def State.setupLeft (s : State) : State :=
  { ({ s with signature := s.image.signatureOf } : State).forcedOff.derived with mode := .operate }

theorem State.toOperate_eq : s.toOperate = s.setupLeft.compared.reformPermissions := by
  rw [← State.compareSignature_eq_compared]
  rfl

theorem State.setupLeft_leg :
    s.setupLeft.leg l = if (s.leg l).func = .forced then (s.leg l).turnOff else s.leg l := by
  have hmode : ∀ t : State, ({ t with mode := .operate } : State).leg l = t.leg l := fun _ => rfl
  rw [State.setupLeft, hmode, State.derived_leg, State.forcedOff, State.leg_mapLegs]
  rfl

theorem State.setupLeft_slot :
    s.setupLeft.slot i =
      { s.slot i with
        seats := s.image.seats i, group := s.image.slotGroup i, partner := s.image.partner i } := by
  have hmode : ∀ t : State, ({ t with mode := .operate } : State).slot i = t.slot i := fun _ => rfl
  rw [State.setupLeft, hmode, State.derived_slot, State.forcedOff, State.mapLegs_slot,
    State.mapLegs_image]
  rfl

theorem State.setupLeft_group : s.setupLeft.group g = { s.group g with periodStart := s.now } := by
  have hmode : ∀ t : State, ({ t with mode := .operate } : State).group g = t.group g := fun _ => rfl
  rw [State.setupLeft, hmode, State.derived_group, State.forcedOff, State.mapLegs_group,
    State.mapLegs_now]
  rfl

/-- Besides slots and legs, the signature, the mode and the carriers are new. -/
theorem State.setupLeft_sameRest :
    ({ s with
        signature := s.image.signed, mode := .operate, groups := s.setupLeft.groups } : State).SameRest
      s.setupLeft := by
  constructor <;>
    simp [State.setupLeft, State.derived, State.startCarriers, State.deriveSlots, State.forcedOff,
      Image.signatureOf_eq]

/-- A FORCED leg is off in OPERATE (R70). -/
theorem State.toOperate_forced (h : (s.leg l).func = .forced) : (s.toOperate.leg l).IsOff := by
  have hoff : s.setupLeft.compared.leg l = (s.leg l).turnOff := by
    rw [← if_pos (c := (s.leg l).func = .forced) (t := (s.leg l).turnOff) (e := s.leg l) h,
      ← State.setupLeft_leg]
    rfl
  rw [State.toOperate_eq]
  rcases s.setupLeft.compared.reformPermissions_leg l with he | he <;> rw [he, hoff]
  · exact Leg.turnOff_isOff _
  · exact Leg.turnOff_isOff _

theorem State.toOperate_derives (h : s.image.validate = none) :
    s.image.Derives i (s.toOperate.slot i) := by
  obtain ⟨hseats, hgroup, hpartner⟩ := s.setupLeft.compared.reformPermissions_derived i
  have hslot : s.setupLeft.compared.slot i = _ := s.setupLeft_slot i
  rw [hslot] at hseats hgroup hpartner
  rw [State.toOperate_eq]
  exact Image.derives_of_validate i h hseats hgroup hpartner

/-- What a LEAVE_SETUP that is taken does besides slots and legs. -/
theorem State.toOperate_sameRest :
    ({ s with
        signature := s.image.signed, mode := .operate
        groups := s.setupLeft.groups } : State).compared.SameRest s.toOperate := by
  have hleft := s.setupLeft_sameRest
  have hcompared : ({ s with
      signature := s.image.signed, mode := .operate
      groups := s.setupLeft.groups } : State).compared.SameRest s.setupLeft.compared := by
    obtain ⟨⟩ := hleft
    constructor <;> simp_all [State.compared]
  rw [State.toOperate_eq]
  exact hcompared.trans s.setupLeft.compared.reformPermissions_sameRest

theorem State.toOperate_group : s.toOperate.group g = { s.group g with periodStart := s.now } := by
  rw [← State.setupLeft_group]
  exact congrArg (fun gs : Vector Group 4 => gs[g]) s.toOperate_sameRest.groups

theorem State.toOperate_perm : (s.toOperate.slot i).perm = (s.toOperate.formPermission i).1 := by
  rw [State.toOperate_eq]
  exact s.setupLeft.compared.reformPermissions_perm i

theorem or_ite_zero (b : Prop) [Decidable b] (w m : Word) :
    (w ||| if b then m else 0#16) = if b then w ||| m else w := by
  split
  · rfl
  · exact BitVec.or_zero

theorem answered_mk (d : DriveLink) (r : Request) (c : ResultCode) (v1 v2 : Word) :
    answered d r (s, ⟨c, v1, v2⟩) = s.respond d r c v1 v2 := rfl

/-- A served request of LEAVE_SETUP is answered by `doLeaveSetup`. -/
theorem State.Serves.leaveSetup {s : State} {d : DriveLink} {r : Request} {rest : List Request}
    {ws : List Work} (h : s.Serves d r rest ws) (hk : r.kind = 12#8) :
    exec (.leaveSetup d) s = (answered d r (doLeaveSetup d r (s.dequeued d rest))).thenWorks ws :=
  congrArg Host.Outcome.next (h.takeServed (by rw [hk]; rfl) doLeaveSetup)

/-- Settles O45: the table of R182 is the search for the first check that fails; LEAVE_SETUP is refused for
its mode, for a STORE in flight and for a failing check, and is otherwise taken. -/
theorem leaveSetupAnswers : Obligations.LeaveSetupAnswers := by
  refine ⟨fun img => ⟨img.validate_eq_none_iff, fun c n hv => ?_⟩, fun s d r rest ws hs hk => ?_⟩
  · obtain ⟨hnamed, hbefore⟩ := img.validate_eq_some c n hv
    refine ⟨img.fails_of_named c n hnamed, hbefore,
      fun hc => ((img.named_leastOf c hc).some n hnamed).2, fun hc => ?_⟩
    subst hc
    exact img.named_alike_eq_some n hnamed
  · intro u
    rw [hs.leaveSetup hk]
    refine ⟨fun hm => ?_, fun hm hop => ?_, fun hm hop => ?_⟩
    · have hrefused : doLeaveSetup d r u = (u, answer .wrongMode 0 0) :=
        if_pos fun h : s.mode = .setup => by cases hm.symm.trans h
      rw [hrefused]
      rfl
    · have hrefused : doLeaveSetup d r u = (u, answer .wrongState 0 0) :=
        (if_neg (not_not.mpr hm)).trans (if_pos hop)
      rw [hrefused]
      rfl
    · have hjudged : doLeaveSetup d r u =
          match u.image.validate with
          | some (reason, n) => (u, answer .mapInvalid reason n)
          | none => (u.toOperate, ⟨.done, u.image.signatureOf, 0#16⟩) :=
        (if_neg (not_not.mpr hm)).trans (if_neg (by rw [State.dequeued_storeOp, hop]; simp))
      refine ⟨fun reason n hv => ?_, fun hv => ?_⟩
      · have hrefused : doLeaveSetup d r u = (u, answer .mapInvalid reason n) := by
          rw [hjudged, State.dequeued_image, hv]
        rw [hrefused, answered_answer, toWord_natCast, toWord_natCast]
      · have htaken : doLeaveSetup d r u = (u.toOperate, ⟨.done, s.image.signed, 0#16⟩) := by
          rw [hjudged, State.dequeued_image, hv, Image.signatureOf_eq]
        have hrest := u.toOperate_sameRest
        rw [htaken, answered_mk]
        refine ⟨u.toOperate, rfl, hrest.mode, hrest.image, hrest.signature,
          fun l hl => u.toOperate_forced l hl,
          fun i => ⟨u.toOperate_derives i hv, u.toOperate_perm i⟩, u.toOperate_group,
          hrest.safety, hrest.globalSet.trans (or_ite_zero _ _ _), hrest.nv, hrest.dc, hrest.cyc, hrest.ports,
          hrest.drives⟩

end Sys2Proof.Machine
end


section
/-! SUPPORT. Load complete (R54, R178): the image judged, the legs given their functions, and OPERATE or SETUP
entered. -/

namespace Sys2Proof.Machine

variable (s : State) (i : SlotId) (l : LegId)

/-! ### The image judged (R178) -/

/-- The four conditions of R178. -/
theorem State.loadGood_iff :
    s.loadGood = true ↔ s.nv.mark = true ∧ (imageOfPages s.loadBuf).IsGood := by
  rw [State.loadGood, Bool.and_eq_true,
    Image.loadsGood_iff (imageOfPages s.loadBuf).validate_eq_none_iff]

/-- The working image after load complete. -/
def State.loadedImage (s : State) : Image := if s.loadGood then imageOfPages s.loadBuf else s.image

theorem State.judgeImage_eq :
    s.judgeImage =
      { s with
        image := s.loadedImage, imageBad := !s.loadGood || s.imageBad
        globalSet := s.globalSet ||| if s.loadGood then 0#16 else 0x0040#16 } := by
  unfold State.judgeImage State.loadedImage
  cases s.loadGood with
  | true => simp
  | false => rfl

/-- The part when its image has been judged and its legs have their functions, in its new mode. -/
def State.judged (s : State) : State :=
  { s.judgeImage.takeFunctions with
    signature := s.judgeImage.takeFunctions.image.signatureOf
    mode := if s.loadGood then .operate else .setup }

theorem State.judged_leg :
    s.judged.leg l =
      (s.leg l).tookEntry (legFuncOf s.loadedImage[32 + l.val]) (s.loadedImage.dt (groupOf l)) s.now
        s.dc.chopper := by
  have hmode : ∀ (t : State) (sig : Word) (m : Mode),
      ({ t with signature := sig, mode := m } : State).leg l = t.leg l := fun _ _ _ => rfl
  rw [State.judged, hmode, State.takeFunctions, State.leg_mapLegs, Leg.takeFunction_eq,
    State.judgeImage_eq]
  rfl

theorem State.judged_slot : s.judged.slot i = s.slot i := by
  have hmode : ∀ (t : State) (sig : Word) (m : Mode),
      ({ t with signature := sig, mode := m } : State).slot i = t.slot i := fun _ _ _ => rfl
  rw [State.judged, hmode, State.takeFunctions, State.mapLegs_slot, State.judgeImage_eq]
  rfl

/-- Besides slots and legs: the image, its signature, IMAGE_BAD and the mode. -/
theorem State.judged_sameRest :
    ({ s with
        image := s.loadedImage, imageBad := !s.loadGood || s.imageBad
        globalSet := s.globalSet ||| if s.loadGood then 0#16 else 0x0040#16
        signature := s.loadedImage.signed
        mode := if s.loadGood then .operate else .setup } : State).SameRest s.judged := by
  constructor <;> simp [State.judged, State.takeFunctions, State.judgeImage_eq, Image.signatureOf_eq]

/-- With a good image the slots are derived and the carriers started (R2, R58). -/
def State.judgedStart (s : State) : State := if s.loadGood then s.judged.derived else s.judged

theorem State.finishLoading_eq : s.finishLoading = s.judgedStart.compared.reformPermissions := by
  rw [← State.compareSignature_eq_compared]
  rfl

theorem State.judgedStart_leg : s.judgedStart.leg l = s.judged.leg l := by
  unfold State.judgedStart
  split
  · exact State.derived_leg _ l
  · rfl

theorem State.judgedStart_state : (s.judgedStart.slot i).state = (s.slot i).state := by
  unfold State.judgedStart
  split
  · rw [State.derived_slot, State.judged_slot]
  · rw [State.judged_slot]

theorem State.judgedStart_sameRest :
    ({ s.judged with groups := s.judgedStart.groups } : State).SameRest s.judgedStart := by
  unfold State.judgedStart
  generalize s.judged = j
  cases s.loadGood with
  | true => exact j.derived_sameRest
  | false => exact State.SameRest.refl j

/-! ### What load complete leaves (R178) -/

theorem State.compared_slot : s.compared.slot i = s.slot i := rfl

theorem State.compared_leg : s.compared.leg l = s.leg l := rfl

theorem State.SameRest.compared {s t : State} (h : s.SameRest t) : s.compared.SameRest t.compared := by
  obtain ⟨⟩ := h
  constructor <;> simp_all [State.compared]

theorem State.SameRest.withGroups {s t : State} (h : s.SameRest t) (gs : Vector Group 4) :
    ({ s with groups := gs } : State).SameRest { t with groups := gs } :=
  ⟨rfl, h.dc, h.cyc, h.safety, h.ports, h.drives, h.mode, h.image, h.nv, h.loadBuf, h.loadPage,
    h.signature, h.imageBad, h.storeOp, h.globalSet, h.now, h.lastFast, h.lastVdc, h.lastTemp, h.agenda,
    h.pending⟩

/-- What load complete changes besides slots and legs, the carriers being `gs`. -/
def State.loadedRest (s : State) (gs : Vector Group 4) : State :=
  { s with
    image := s.loadedImage, imageBad := !s.loadGood || s.imageBad
    globalSet := s.globalSet ||| if s.loadGood then 0#16 else 0x0040#16
    signature := s.loadedImage.signed
    mode := if s.loadGood then .operate else .setup
    groups := gs }

theorem State.finishLoading_sameRest :
    (s.loadedRest s.judgedStart.groups).compared.SameRest s.finishLoading := by
  have hjudged := s.judged_sameRest.withGroups s.judgedStart.groups
  rw [State.finishLoading_eq]
  exact (hjudged.trans s.judgedStart_sameRest).compared.trans
    s.judgedStart.compared.reformPermissions_sameRest

theorem State.finishLoading_perm :
    (s.finishLoading.slot i).perm = (s.finishLoading.formPermission i).1 := by
  rw [State.finishLoading_eq]
  exact s.judgedStart.compared.reformPermissions_perm i

/-- Every leg takes its function (R54). -/
theorem State.finishLoading_func :
    (s.finishLoading.leg l).func = legFuncOf s.loadedImage[32 + l.val] := by
  have htook : ∀ (x : Leg) (f : LegFunc) (dt now : Nat) (on : Bool),
      (x.tookEntry f dt now on).func = f := by
    intro x f dt now on
    unfold Leg.tookEntry
    split_ifs <;> rfl
  rw [State.finishLoading_eq]
  rcases s.judgedStart.compared.reformPermissions_leg l with he | he <;> 
      rw [he, State.compared_leg, State.judgedStart_leg, State.judged_leg]
  · exact htook ..
  · exact htook ..

/-- While no slot is active nothing else happens to a leg. -/
theorem State.finishLoading_leg (h : ∀ i, (s.slot i).state.isActive = false) :
    s.finishLoading.leg l =
      (s.leg l).tookEntry (legFuncOf s.loadedImage[32 + l.val]) (s.loadedImage.dt (groupOf l)) s.now
        s.dc.chopper := by
  have hnone : ∀ i, (s.judgedStart.compared.slot i).state.isActive = false := fun i =>
    (congrArg SlotState.isActive (s.judgedStart_state i)).trans (h i)
  rw [State.finishLoading_eq, State.reformPermissions_leg_of_none_active hnone, State.compared_leg,
    State.judgedStart_leg, State.judged_leg]

theorem State.finishLoading_slot_bad (h : ¬s.loadGood = true) :
    (s.finishLoading.slot i).seats = (s.slot i).seats ∧
      (s.finishLoading.slot i).group = (s.slot i).group ∧
      (s.finishLoading.slot i).partner = (s.slot i).partner := by
  have hslot : s.judgedStart.compared.slot i = s.slot i := by
    rw [State.compared_slot, State.judgedStart, if_neg h, State.judged_slot]
  rw [State.finishLoading_eq, ← hslot]
  exact s.judgedStart.compared.reformPermissions_derived i

/-- With a good image the slot fields are those of R2. -/
theorem State.finishLoading_derives (h : s.loadGood = true) :
    (imageOfPages s.loadBuf).Derives i (s.finishLoading.slot i) := by
  have himage : s.judged.image = imageOfPages s.loadBuf := s.judged_sameRest.image.trans (if_pos h)
  have hvalid : (imageOfPages s.loadBuf).validate = none :=
    (imageOfPages s.loadBuf).validate_eq_none_iff.mpr ((s.loadGood_iff.mp h).2.checks)
  have hslot : s.judgedStart.compared.slot i =
      { s.judged.slot i with
        seats := s.judged.image.seats i, group := s.judged.image.slotGroup i
        partner := s.judged.image.partner i } := by
    rw [State.compared_slot, State.judgedStart, if_pos h, State.derived_slot]
  obtain ⟨hseats, hgroup, hpartner⟩ := s.judgedStart.compared.reformPermissions_derived i
  rw [State.finishLoading_eq]
  refine Image.derives_of_validate i hvalid ?_ ?_ ?_
  · rw [hseats, hslot, himage]
  · rw [hgroup, hslot, himage]
  · rw [hpartner, hslot, himage]

/-- With a good image the carriers start. -/
theorem State.finishLoading_group_good (h : s.loadGood = true) (g : GroupId) :
    (s.finishLoading.group g).periodStart = s.now := by
  have hgroup : s.finishLoading.group g = s.judged.derived.group g := by
    have hstart : s.judgedStart = s.judged.derived := if_pos h
    rw [← hstart]
    exact congrArg (fun gs : Vector Group 4 => gs[g]) s.finishLoading_sameRest.groups
  rw [hgroup, State.derived_group]
  dsimp only
  exact s.judged_sameRest.now

theorem State.finishLoading_groups_bad (h : ¬s.loadGood = true) :
    s.finishLoading.groups = s.groups := by
  refine s.finishLoading_sameRest.groups.trans ?_
  have hstart : s.judgedStart = s.judged := if_neg h
  exact (congrArg State.groups hstart).trans s.judged_sameRest.groups

/-! ### Load complete at its instant (R177, log 3) -/

theorem State.atCount_sameRest (n : Nat) :
    ({ s with now := max s.now n } : State).SameRest (s.atCount n) := by
  have hnow := s.atCount_now n
  unfold State.atCount at hnow ⊢
  split <;> constructor <;> simp_all

/-- What is judged stands in the store and the load buffer alone. -/
theorem State.SameRest.loadGood {s t : State} (h : s.SameRest t) : t.loadGood = s.loadGood := by
  rw [State.loadGood, h.nv, h.loadBuf]
  rfl

theorem State.SameRest.loadedImage {s t : State} (h : s.SameRest t) :
    t.loadedImage = s.loadedImage := by
  rw [State.loadedImage, h.loadGood, h.loadBuf, h.image]
  rfl

theorem State.SameRest.loadedRest {s t : State} (h : s.SameRest t) (gs : Vector Group 4) :
    (s.loadedRest gs).SameRest (t.loadedRest gs) := by
  have hgood := h.loadGood
  have himage := h.loadedImage
  obtain ⟨⟩ := h
  constructor <;> simp_all [State.loadedRest]

/-- The part at load complete, before its image is judged. -/
def State.atLoadComplete (s : State) : State := s.atCount 200000

theorem State.atLoadComplete_sameRest :
    ({ s with now := max s.now 200000 } : State).SameRest s.atLoadComplete :=
  s.atCount_sameRest 200000

theorem State.atLoadComplete_loadGood : s.atLoadComplete.loadGood = s.loadGood :=
  s.atLoadComplete_sameRest.loadGood

/-- All that load complete does besides slots and legs. -/
theorem State.atLoadComplete_finished :
    (({ s with now := max s.now 200000 } : State).loadedRest
      s.atLoadComplete.judgedStart.groups).compared.SameRest s.atLoadComplete.finishLoading :=
  (s.atLoadComplete_sameRest.loadedRest _).compared.trans s.atLoadComplete.finishLoading_sameRest

theorem exec_loadComplete {s : State} (hm : s.mode = .loading) (hp : s.loadPage = 8)
    (ha : s.agenda = []) : exec .loadComplete s = .next s.atLoadComplete.finishLoading := by
  refine congrArg Host.Outcome.next ?_
  rw [State.loadComplete, if_pos ⟨hm, hp⟩, State.arrive_of_empty ha]
  rfl

theorem State.atLoadComplete_slot :
    ∃ b, s.atLoadComplete.slot i = { s.slot i with stopLoaded := b } :=
  State.atCount_slot_mark s i 200000

theorem State.atLoadComplete_leg : s.atLoadComplete.leg l = s.leg l := s.atCount_leg 200000 l

/-- Settles O6: the image that the four conditions of R178 hold for is taken and OPERATE entered, and
otherwise SETUP; slots and legs follow the image taken. -/
theorem loadCompleteJudgesImage : Obligations.LoadCompleteJudgesImage := by
  intro s hm hp ha img good
  have hrest := s.atLoadComplete_finished
  have himage := s.atLoadComplete.finishLoading_sameRest.image
  have hnow : s.atLoadComplete.finishLoading.now = s.atLoadComplete.now :=
    s.atLoadComplete.finishLoading_sameRest.now
  have hdc : s.atLoadComplete.dc = s.dc := s.atLoadComplete_sameRest.dc
  have hsig : s.atLoadComplete.finishLoading.signature = s.loadedImage.signed := hrest.signature
  have hset : s.atLoadComplete.finishLoading.globalSet =
      s.globalSet ||| (if s.loadGood then 0#16 else 0x0040#16) |||
        if s.safety.freshSeen = true ∧ s.safety.expectedSig ≠ s.loadedImage.signed then 0x0020#16
        else 0#16 := hrest.globalSet
  have hbad : s.atLoadComplete.finishLoading.imageBad = (!s.loadGood || s.imageBad) := hrest.imageBad
  have hgood : good ↔ s.loadGood = true := s.loadGood_iff.symm
  refine ⟨s.atLoadComplete.finishLoading, exec_loadComplete hm hp ha, hrest.now, ?_, fun l => ?_,
    fun hnone l => ?_, fun i => s.atLoadComplete.finishLoading_perm i, ?_, ⟨fun h => ?_, fun h => ?_⟩,
    fun h => ?_, fun h => ?_, hrest.nv, hrest.dc, hrest.cyc, hrest.drives, hrest.ports⟩
  · rw [hsig, hrest.image]
    rfl
  · rw [s.atLoadComplete.finishLoading_func l, himage]
    rfl
  · have hidle : ∀ i, (s.atLoadComplete.slot i).state.isActive = false := fun i => by
      obtain ⟨b, hslot⟩ := s.atLoadComplete_slot i
      rw [hslot]
      exact hnone i
    rw [s.atLoadComplete.finishLoading_leg l hidle, State.atLoadComplete_leg, himage, hnow, hdc]
    rfl
  · rw [hsig]
    exact hrest.safety
  · rw [hset, hsig, if_pos (hgood.mp h), BitVec.or_zero]
  · rw [hset, hsig, if_neg (hgood.not.mp h)]
  · rw [hgood] at h
    have htaken : s.atLoadComplete.loadGood = true := s.atLoadComplete_loadGood.trans h
    refine ⟨hrest.mode.trans (if_pos h), hrest.image.trans (if_pos h), by rw [hbad, h]; rfl,
      fun i => ?_, fun g => (s.atLoadComplete.finishLoading_group_good htaken g).trans hnow.symm⟩
    have hderives := s.atLoadComplete.finishLoading_derives i htaken
    rw [s.atLoadComplete_sameRest.loadBuf] at hderives
    exact hderives
  · rw [hgood] at h
    have hkept : ¬s.atLoadComplete.loadGood = true := by rwa [s.atLoadComplete_loadGood]
    have hmode : s.atLoadComplete.finishLoading.mode = .setup := hrest.mode.trans (if_neg h)
    refine ⟨hmode, hrest.image.trans (if_neg h), by rw [hbad, Bool.eq_false_iff.mpr h]; rfl,
      (s.atLoadComplete.finishLoading_groups_bad hkept).trans s.atLoadComplete_sameRest.groups,
      fun i => ?_⟩
    obtain ⟨hseats, hgroup, hpartner⟩ := s.atLoadComplete.finishLoading_slot_bad i hkept
    obtain ⟨b, hslot⟩ := s.atLoadComplete_slot i
    have hoff : s.atLoadComplete.finishLoading.formPermission i = (.off, 0) :=
      State.formPermission_of_not_operate (by rw [hmode]; decide) i
    rw [hseats, hgroup, hpartner, hslot, s.atLoadComplete.finishLoading_perm i, hoff]
    exact ⟨rfl, rfl, rfl, rfl⟩

end Sys2Proof.Machine
end


section
/-! SUPPORT. Identifiers, named parameters and READ_PARAM (R22, R53, R179, R181). -/

namespace Sys2Proof.Machine

variable (s : State) (img : Image) (w : Word)

/-! ### Identifiers (R179) -/

/-- An identifier by its two bytes as numbers. -/
theorem ParamId.ofWord_eq :
    ParamId.ofWord w =
      if w.toNat / 256 = 0 then
        if h : w.toNat % 256 < 27 then some (.item (.global ⟨w.toNat % 256, h⟩))
        else if w.toNat % 256 = 31 then some .signature else none
      else if w.toNat / 256 = 1 then
        if h : w.toNat % 256 < 24 then some (.item (.leg ⟨w.toNat % 256, h⟩)) else none
      else if ha : 2 ≤ w.toNat / 256 ∧ w.toNat / 256 ≤ 9 then
        if h : w.toNat % 256 < 16 then
          some (.item (.slot ⟨w.toNat / 256 - 2, by omega⟩ ⟨w.toNat % 256, h⟩))
        else none
      else none := by
  have hhi : (hiByte w).toNat = w.toNat / 256 := by
    have := w.isLt
    rw [hiByte_eq, BitVec.toNat_ofNat]
    omega
  have hlo : (loByte w).toNat = w.toNat % 256 := by rw [loByte_eq, BitVec.toNat_ofNat]
  simp only [ParamId.ofWord, hhi, hlo]

theorem ParamId.ofWord_global (g : Fin 27) :
    ParamId.ofWord w = some (.item (.global g)) ↔ w.toNat / 256 = 0 ∧ w.toNat % 256 = g.val := by
  rw [ParamId.ofWord_eq]
  split_ifs <;> simp [Fin.ext_iff] <;> omega

theorem ParamId.ofWord_signature :
    ParamId.ofWord w = some .signature ↔ w.toNat / 256 = 0 ∧ w.toNat % 256 = 31 := by
  rw [ParamId.ofWord_eq]
  split_ifs <;> simp <;> omega

theorem ParamId.ofWord_leg (l : LegId) :
    ParamId.ofWord w = some (.item (.leg l)) ↔ w.toNat / 256 = 1 ∧ w.toNat % 256 = l.val := by
  rw [ParamId.ofWord_eq]
  split_ifs <;> simp [Fin.ext_iff] <;> omega

theorem ParamId.ofWord_slot (m : SlotId) (j : Fin 16) :
    ParamId.ofWord w = some (.item (.slot m j)) ↔ w.toNat / 256 = 2 + m.val ∧ w.toNat % 256 = j.val := by
  rw [ParamId.ofWord_eq]
  split_ifs <;> simp [Fin.ext_iff] <;> omega

/-! ### Named parameters (R179) -/

/-- PARTNER lies in the last item of a slot. -/
theorem Image.item_partner (m : SlotId) :
    img.item (.slot m 15) = img[71 + 16 * m.val]'(by omega) := by
  have hindex : (Item.slot m 15).index = ⟨71 + 16 * m.val, by omega⟩ :=
    Fin.ext (by simp only [Item.index]; omega)
  exact congrArg (fun n : Fin 256 => img[n]) hindex

theorem Image.partner_eq_some (m p : SlotId) :
    img.partner m = some p ↔ (img[71 + 16 * m.val]'(by omega)).toNat = p.val := by
  simp only [Image.partner, Image.slotNat, Image.item_partner]
  split
  · simp [Fin.ext_iff]
  · simp; omega

/-! ### READ_PARAM (R181) -/

/-- The entry as it is stored: the fields that its function does not use are 0 (R53, log 12). -/
theorem legNormal_eq (v : Word) : legNormal v = if v.toNat / 4096 = 1 then v else v &&& 0xF000#16 := by
  rw [legNormal, legField_function]

/-- What READ_PARAM shows of each parameter. -/
theorem State.readItem_eq (i : Item) :
    s.readItem i =
      match i with
      | .global g => s.image[g.val]
      | .leg l =>
        if s.image[32 + l.val].toNat / 4096 = 1 then s.image[32 + l.val]
        else s.image[32 + l.val] &&& 0xF000#16
      | .slot n j =>
        if h : j.val < 7 then
          ((s.slot n).staged[j.val]'h).getD (s.image[56 + 16 * n.val + j.val]'(by omega))
        else s.image[56 + 16 * n.val + j.val]'(by omega) := by
  cases i with
  | global g => rfl
  | leg l => exact legNormal_eq _
  | slot n j => rfl

/-- A served request of READ_PARAM is answered by `doReadParam`. -/
theorem State.Serves.readParam {s : State} {d : DriveLink} {r : Request} {rest : List Request}
    {ws : List Work} (h : s.Serves d r rest ws) (hk : r.kind = 9#8) :
    exec (.readParam d) s = (answered d r (doReadParam d r (s.dequeued d rest))).thenWorks ws :=
  congrArg Host.Outcome.next (h.takeServed (by rw [hk]; rfl) doReadParam)

/-- Settles O41: the identifier's two bytes name the item, each item has its word, and READ_PARAM answers by
what the identifier names. -/
theorem readParamAnswers : Obligations.ReadParamAnswers := by
  refine ⟨fun w => ⟨ParamId.ofWord_global w, ParamId.ofWord_signature w, ParamId.ofWord_leg w,
    ParamId.ofWord_slot w⟩, fun img => ⟨rfl, rfl, rfl, fun g => ⟨rfl, rfl, rfl⟩, rfl, rfl,
    rfl, fun m => ⟨rfl, img.partner_eq_some m⟩⟩, fun s d r rest ws hs hk => ?_⟩
  intro u
  rw [hs.readParam hk]
  refine congrArg (State.thenWorks · ws) ?_
  unfold doReadParam
  cases ParamId.ofWord r.arg1 with
  | none => rfl
  | some p =>
    cases p with
    | signature => rfl
    | item i =>
      refine (answered_mk u d r .done (u.readItem i) 0#16).trans ?_
      rw [State.readItem_eq]
      cases i <;> rfl

end Sys2Proof.Machine
end


section
/-! SUPPORT. Ranges and code sets, leg-map entries, and WRITE_PARAM (R21, R22, R53, R54, R179, R181). -/

namespace Sys2Proof.Machine

/-! ### A value examined (R181, checks 3 and 4) -/

section
variable {i : Item} (v : Word)

theorem Item.examine_unsigned {lo hi : Nat} (h : i.kind = .unsigned lo hi) :
    i.examine v =
      if v.toNat < lo then some (natWord lo, true)
      else if hi < v.toNat then some (natWord hi, true) else some (v, false) := by
  rw [Item.examine, h]
  rfl

theorem Item.examine_signed {lo hi : Int} (h : i.kind = .signed lo hi) :
    i.examine v =
      if v.toInt < lo then some (BitVec.ofInt 16 lo, true)
      else if hi < v.toInt then some (BitVec.ofInt 16 hi, true) else some (v, false) := by
  rw [Item.examine, h]
  rfl

theorem Item.examine_bits {used : Word} (h : i.kind = .bits used) :
    i.examine v = if v &&& ~~~used = 0#16 then some (v, false) else none := by
  rw [Item.examine, h]

theorem Item.examine_partner (h : i.kind = .partnerCode) :
    i.examine v = if v.toNat ≤ 7 ∨ v.toNat = 255 then some (v, false) else none := by
  rw [Item.examine, h]

/-- A leg-map entry: for PHASE every field lies in its set, for another function the unused ones are stored
as 0 (R53, log 12). -/
theorem Item.examine_leg (h : i.kind = .legCode) :
    i.examine v =
      if v.toNat / 4096 = 1 then
        if v.toNat / 256 % 16 ≤ 7 ∧ v.toNat / 16 % 16 ≤ 2 ∧ v.toNat % 16 ≤ 1 then some (v, false)
        else none
      else if v.toNat / 4096 ≤ 3 then some (v &&& 0xF000#16, false) else none := by
  have hslot : legField v 8 = v.toNat / 256 % 16 := rfl
  have hphase : legField v 4 = v.toNat / 16 % 16 := rfl
  have hexamine : i.examine v = if legCodeOk v then some (legNormal v, false) else none := by
    rw [Item.examine, h]
  rw [hexamine, legNormal_eq]
  simp only [legCodeOk, legField_function, legField_index, hslot, hphase]
  by_cases hf : v.toNat / 4096 = 1
  · simp [hf, and_assoc]
  · simp [hf]

end

/-! ### The function a leg-map entry gives (R53) -/

section
variable {v : Word}

theorem legFuncOf_unused (h : v.toNat / 4096 = 0) : legFuncOf v = .unused := by
  rw [legFuncOf, legField_function, h]
  rfl

theorem legFuncOf_chopper (h : v.toNat / 4096 = 2) : legFuncOf v = .chopper := by
  rw [legFuncOf, legField_function, h]
  rfl

theorem legFuncOf_forced (h : v.toNat / 4096 = 3) : legFuncOf v = .forced := by
  rw [legFuncOf, legField_function, h]
  rfl

/-- A phase is read back from its code. -/
theorem Phase.ofCode_code {n : Nat} (h : n ≤ 2) :
    n = match Phase.ofCode n with | .u => 0 | .v => 1 | .w => 2 := by
  obtain rfl | rfl | rfl : n = 0 ∨ n = 1 ∨ n = 2 := by omega
  · rfl
  · rfl
  · rfl

theorem legFuncOf_phase (h : v.toNat / 4096 = 1) :
    ∃ n ph ix, legFuncOf v = .phase n ph ix ∧
      (v.toNat / 256 % 16 ≤ 7 → n.val = v.toNat / 256 % 16) ∧
      (v.toNat / 16 % 16 ≤ 2 →
        v.toNat / 16 % 16 = (match ph with | .u => 0 | .v => 1 | .w => 2)) ∧
      (v.toNat % 16 ≤ 1 → ix.val = v.toNat % 16) := by
  have hfunc : legFuncOf v = .phase ⟨legField v 8 % 8, by omega⟩ (Phase.ofCode (legField v 4))
      ⟨legField v 0 % 2, by omega⟩ := by
    rw [legFuncOf, legField_function, h]
    rfl
  refine ⟨_, _, _, hfunc, fun hslot => ?_, fun hphase => Phase.ofCode_code hphase, fun hindex => ?_⟩
  · exact Nat.mod_eq_of_lt (Nat.lt_succ_of_le hslot)
  · rw [← legField_index] at hindex ⊢
    exact Nat.mod_eq_of_lt (Nat.lt_succ_of_le hindex)

end

/-! ### A value written (R54, R181) -/

section
variable (s : State) (i : Item) (v : Word)

/-- The word of an item alone takes the value. -/
theorem Image.setItem_getElem (img : Image) (n : Nat) (h : n < 256) :
    (img.setItem i v)[n] =
      if n = (match i with
          | .global g => g.val
          | .leg l => 32 + l.val
          | .slot m j => 56 + 16 * m.val + j.val)
      then v else img[n] := by
  rw [Image.setItem, Vector.getElem_set]
  cases i <;> simp only [Item.index, eq_comm]

theorem State.writeItem_image : (s.writeItem i v).image = s.image.setItem i v := by
  cases i <;> rfl

theorem State.writeItem_frame :
    { s.writeItem i v with image := s.image, legs := s.legs, slots := s.slots } = s := by
  cases i <;> rfl

/-- A tuning value takes the place of one that waits (R22). -/
theorem State.writeItem_slot (m : SlotId) :
    (s.writeItem i v).slot m =
      match i with
      | .slot n j =>
        if h : j.val < 7 then
          if m = n then { s.slot n with staged := (s.slot n).staged.set j.val none h } else s.slot m
        else s.slot m
      | _ => s.slot m := by
  cases i with
  | global g => rfl
  | leg l => rfl
  | slot n j =>
    refine (State.slot_setSlot _ n m _).trans ?_
    by_cases hmn : n = m
    · subst hmn
      rw [if_pos rfl, Slot.unstage]
      simp
    · rw [if_neg hmn]
      dsimp only
      split
      · exact (if_neg (Ne.symm hmn)).symm
      · rfl

theorem State.writeItem_leg_of_ne {m : LegId} (h : i ≠ .leg m) : (s.writeItem i v).leg m = s.leg m := by
  cases i with
  | global g => rfl
  | slot n j => rfl
  | leg l =>
    refine (State.leg_setLeg _ l m _).trans (if_neg fun hlm => h ?_)
    rw [hlm]

/-- A leg-map entry gives its leg the function in force (R54). -/
theorem State.writeItem_leg (m : LegId) :
    (s.writeItem (.leg m) v).leg m =
      (s.leg m).tookEntry (legFuncOf v) (s.image.dt (groupOf m)) s.now s.dc.chopper := by
  rw [← Leg.takeFunction_eq]
  exact (State.leg_setLeg _ m m _).trans (if_pos rfl)

theorem State.stageItem_slot (n : SlotId) {j : Fin 16} (h : j.val < 7) :
    s.stageItem (.slot n j) v =
      s.setSlot n { s.slot n with staged := (s.slot n).staged.set j.val (some v) h } :=
  dif_pos h

end

/-! ### WRITE_PARAM (R181) -/

/-- A served request of WRITE_PARAM is answered by `doWriteParam`. -/
theorem State.Serves.writeParam {s : State} {d : DriveLink} {r : Request} {rest : List Request}
    {ws : List Work} (h : s.Serves d r rest ws) (hk : r.kind = 10#8) :
    exec (.writeParam d) s = (answered d r (doWriteParam d r (s.dequeued d rest))).thenWorks ws :=
  congrArg Host.Outcome.next (h.takeServed (by rw [hk]; rfl) doWriteParam)

/-- An identifier of no parameter is refused. -/
theorem doWriteParam_bad_id {r : Request} (h : ∀ i, ParamId.ofWord r.arg1 ≠ some (.item i))
    (d : DriveLink) (s : State) : doWriteParam d r s = (s, answer .badId 0 0) := by
  unfold doWriteParam
  split
  · rfl
  · rfl
  · next i hi => exact absurd hi (h i)

/-- A parameter's write by its access and its value. -/
theorem answered_doWriteParam {r : Request} {i : Item} (h : ParamId.ofWord r.arg1 = some (.item i))
    (d : DriveLink) (s : State) :
    answered d r (doWriteParam d r s) =
      match s.writeAccess d i, i.examine r.arg2 with
      | .refused a, _ => s.respond d r a.code a.value1 a.value2
      | .atOnce, none => s.respond d r .badValue 0#16 0#16
      | .staged, none => s.respond d r .badValue 0#16 0#16
      | .atOnce, some (v, clamped) =>
        (s.writeItem i v).respond d r (if clamped then .clamped else .done) v 0#16
      | .staged, some (v, clamped) =>
        (s.stageItem i v).respond d r (if clamped then .clamped else .done) v 0#16 := by
  simp only [doWriteParam, h]
  cases s.writeAccess d i with
  | refused a => rfl
  | atOnce =>
    cases i.examine r.arg2 with
    | none => rfl
    | some out => rfl
  | staged =>
    cases i.examine r.arg2 with
    | none => rfl
    | some out => rfl

/-- Settles O42: the kinds of the items, each kind's examination, what a value taken at once or staged
changes, and the request's answer by identifier, access and value. -/
theorem writeParamAnswers : Obligations.WriteParamAnswers := by
  refine ⟨⟨by decide, fun m => rfl, fun l => rfl⟩,
    fun i v => ⟨fun lo hi h => Item.examine_unsigned v h, fun lo hi h => Item.examine_signed v h,
      fun used h => Item.examine_bits v h, Item.examine_partner v, Item.examine_leg v⟩,
    fun s i v => ?_, fun s n j v h => s.stageItem_slot v n h, fun s d r rest ws hs hk => ?_⟩
  · refine ⟨fun n h => ?_, s.writeItem_frame i v, s.writeItem_slot i v,
      fun m hm => s.writeItem_leg_of_ne i v hm, fun m hm => ?_⟩
    · simp only [State.writeItem_image]
      exact Image.setItem_getElem i v s.image n h
    · subst hm
      exact ⟨legFuncOf_unused, legFuncOf_chopper, legFuncOf_forced, legFuncOf_phase,
        s.writeItem_leg v m⟩
  · intro u
    rw [hs.writeParam hk]
    by_cases hid : ∀ i, ParamId.ofWord r.arg1 ≠ some (.item i)
    · refine .inl ⟨hid, ?_⟩
      rw [doWriteParam_bad_id hid]
      rfl
    · push Not at hid
      obtain ⟨i, hi⟩ := hid
      exact .inr ⟨i, hi, congrArg (State.thenWorks · ws) (answered_doWriteParam hi d u)⟩

end Sys2Proof.Machine
end

section
/-! SUPPORT. What a step does with the queue of commands. -/

namespace Sys2Proof.Machine

theorem step_of_pending_cons {s : State} {c : Instr} {rest : List Instr} (h : s.pending = c :: rest) :
    step s = exec c { s with pending := rest } := by
  simp only [step, h]

theorem step_of_pending_nil {s : State} (h : s.pending = []) : step s = .next s := by
  simp only [step, h]

/-- Settles O1: one equation of the step for each shape of the queue. -/
theorem stepTakesFrontCommand : Obligations.StepTakesFrontCommand := by
  intro s
  constructor
  · intro c rest h
    exact step_of_pending_cons h
  · exact step_of_pending_nil

end Sys2Proof.Machine
end
section
/-! SUPPORT. What the rules kept by every step look at (R4, R12 to R19, R56, R98 to R111, R163, R168), and the
operations that leave all of it alone. -/

namespace Sys2Proof.Machine

/-! ### The parts of a record that the rules look at -/

/-- What the rules of every step look at in a slot record. -/
structure Slot.Core where
  state : SlotState
  owner : Option DriveLink
  partner : Option SlotId
  perm : Permission
  lPerm : Nat
  stopCount : Nat
  stopLoaded : Bool
  resv : Nat
  kScale : Nat
  demand : Nat

def Slot.core (x : Slot) : Slot.Core :=
  ⟨x.state, x.owner, x.partner, x.perm, x.lPerm, x.stopCount, x.stopLoaded, x.resv, x.kScale, x.demand⟩

/-- What the rules of every step look at in a leg record. -/
structure Leg.Core where
  func : LegFunc
  drive : Drive
  target : Target
  gh : Bool
  gl : Bool
  pendingOn : Option TurnOn
  shadow : Option Nat

def Leg.core (x : Leg) : Leg.Core := ⟨x.func, x.drive, x.target, x.gh, x.gl, x.pendingOn, x.shadow⟩

/-- An operation that the rules of every step do not see: it leaves alone what they look at, and takes no
queue or link beyond its bound. -/
structure State.Quiet (s t : State) : Prop where
  mode : t.mode = s.mode
  iIn : t.image.iIn = s.image.iIn
  toff : t.safety.toffHigh = s.safety.toffHigh
  kr : t.dc.kr = s.dc.kr
  slots : ∀ i, (t.slot i).core = (s.slot i).core
  legs : ∀ l, (t.leg l).core = (s.leg l).core
  queues : ∀ d, (t.drive d).queue.length ≤ max 2 (s.drive d).queue.length
  bytes : ∀ k, (t.port k).bytes.length ≤ max 255 (s.port k).bytes.length

namespace State.Quiet

theorem refl (s : State) : s.Quiet s :=
  ⟨rfl, rfl, rfl, rfl, fun _ => rfl, fun _ => rfl, fun _ => le_max_right _ _, fun _ => le_max_right _ _⟩

variable {s t u : State}

theorem trans (h : s.Quiet t) (k : t.Quiet u) : s.Quiet u where
  mode := k.mode.trans h.mode
  iIn := k.iIn.trans h.iIn
  toff := k.toff.trans h.toff
  kr := k.kr.trans h.kr
  slots i := (k.slots i).trans (h.slots i)
  legs l := (k.legs l).trans (h.legs l)
  queues d := (k.queues d).trans (max_le (le_max_left _ _) (h.queues d))
  bytes p := (k.bytes p).trans (max_le (le_max_left _ _) (h.bytes p))

/-- The same with the later operation named first. -/
theorem after (k : t.Quiet u) (h : s.Quiet t) : s.Quiet u := h.trans k

/-- Slot and leg records that look alike, in a state that is otherwise the same but for fields no rule
looks at. -/
theorem of_records (hm : t.mode = s.mode) (hi : t.image = s.image) (hs : t.safety.toffHigh = s.safety.toffHigh)
    (hd : t.dc.kr = s.dc.kr) (hports : t.ports = s.ports) (hdrives : t.drives = s.drives)
    (hslots : ∀ i, (t.slot i).core = (s.slot i).core) (hlegs : ∀ l, (t.leg l).core = (s.leg l).core) :
    s.Quiet t where
  mode := hm
  iIn := congrArg Image.iIn hi
  toff := hs
  kr := hd
  slots := hslots
  legs := hlegs
  queues d := (congrArg (fun v : Vector DriveRec 2 => v[driveIndex d].queue.length) hdrives).le.trans
    (le_max_right _ _)
  bytes k := (congrArg (fun v : Vector Port 3 => v[linkIndex k].bytes.length) hports).le.trans
    (le_max_right _ _)

/-- Only fields that no rule looks at have changed. -/
theorem of_fields (hm : t.mode = s.mode) (hi : t.image = s.image)
    (hs : t.safety.toffHigh = s.safety.toffHigh) (hd : t.dc.kr = s.dc.kr) (hports : t.ports = s.ports)
    (hdrives : t.drives = s.drives) (hslots : t.slots = s.slots) (hlegs : t.legs = s.legs) : s.Quiet t :=
  of_records hm hi hs hd hports hdrives
    (fun i => congrArg (fun v : Vector Slot 8 => v[i].core) hslots)
    fun l => congrArg (fun v : Vector Leg 24 => v[l].core) hlegs

theorem state (h : s.Quiet t) (i : SlotId) : (t.slot i).state = (s.slot i).state :=
  congrArg Slot.Core.state (h.slots i)

theorem owner (h : s.Quiet t) (i : SlotId) : (t.slot i).owner = (s.slot i).owner :=
  congrArg Slot.Core.owner (h.slots i)

theorem partner (h : s.Quiet t) (i : SlotId) : (t.slot i).partner = (s.slot i).partner :=
  congrArg Slot.Core.partner (h.slots i)

theorem perm (h : s.Quiet t) (i : SlotId) : (t.slot i).perm = (s.slot i).perm :=
  congrArg Slot.Core.perm (h.slots i)

theorem lPerm (h : s.Quiet t) (i : SlotId) : (t.slot i).lPerm = (s.slot i).lPerm :=
  congrArg Slot.Core.lPerm (h.slots i)

theorem stopCount (h : s.Quiet t) (i : SlotId) : (t.slot i).stopCount = (s.slot i).stopCount :=
  congrArg Slot.Core.stopCount (h.slots i)

theorem stopLoaded (h : s.Quiet t) (i : SlotId) : (t.slot i).stopLoaded = (s.slot i).stopLoaded :=
  congrArg Slot.Core.stopLoaded (h.slots i)

theorem resv (h : s.Quiet t) (i : SlotId) : (t.slot i).resv = (s.slot i).resv :=
  congrArg Slot.Core.resv (h.slots i)

theorem kScale (h : s.Quiet t) (i : SlotId) : (t.slot i).kScale = (s.slot i).kScale :=
  congrArg Slot.Core.kScale (h.slots i)

theorem demand (h : s.Quiet t) (i : SlotId) : (t.slot i).demand = (s.slot i).demand :=
  congrArg Slot.Core.demand (h.slots i)

/-! ### Single records replaced -/

theorem setSlot (s : State) (i : SlotId) {x : Slot} (hx : x.core = (s.slot i).core) :
    s.Quiet (s.setSlot i x) :=
  of_records rfl rfl rfl rfl rfl rfl
    (fun j => by rw [State.slot_setSlot]; split <;> [(next h => rw [← h]; exact hx); rfl]) fun l =>
    congrArg Leg.core (State.setSlot_leg s i x l)

theorem setDrive (s : State) (d : DriveLink) {x : DriveRec}
    (hx : x.queue.length ≤ max 2 (s.drive d).queue.length) : s.Quiet (s.setDrive d x) :=
  { refl s with
    queues := fun e => by
      rw [State.drive_setDrive]
      split
      · next h => exact h ▸ hx
      · exact le_max_right _ _ }

theorem setPort (s : State) (k : Link) {x : Port}
    (hx : x.bytes.length ≤ max 255 (s.port k).bytes.length) : s.Quiet (s.setPort k x) :=
  { refl s with
    bytes := fun e => by
      rw [State.port_setPort]
      split
      · next h => exact h ▸ hx
      · exact le_max_right _ _ }

theorem mapSlots (s : State) {f : SlotId → Slot → Slot} (hf : ∀ i x, (f i x).core = x.core) :
    s.Quiet (s.mapSlots f) :=
  of_records rfl rfl rfl rfl rfl rfl (fun i => by rw [State.slot_mapSlots]; exact hf i _) fun l =>
    congrArg Leg.core (State.mapSlots_leg s f l)

theorem mapLegs (s : State) {f : LegId → Leg → Leg} (hf : ∀ l x, (f l x).core = x.core) :
    s.Quiet (s.mapLegs f) :=
  of_records (s.mapLegs_mode f) (s.mapLegs_image f) (congrArg Safety.toffHigh (s.mapLegs_safety f))
    (congrArg DcLink.kr (s.mapLegs_dc f)) (s.mapLegs_ports f) (s.mapLegs_drives f)
    (fun i => congrArg Slot.core (State.mapLegs_slot s f i)) fun l => by
    rw [State.leg_mapLegs]; exact hf l _

theorem agenda (s : State) (ws : List Work) : s.Quiet { s with agenda := ws } :=
  of_fields rfl rfl rfl rfl rfl rfl rfl rfl

theorem setFlagIf (s : State) (b : Bool) (f : Flag) : s.Quiet (s.setFlagIf b f) := by
  cases b <;> exact of_fields rfl rfl rfl rfl rfl rfl rfl rfl

end State.Quiet

end Sys2Proof.Machine
end

section
/-! SUPPORT. The works, requests and events that the rules of every step do not see. -/

namespace Sys2Proof.Machine

variable (s : State)

/-! ### Works -/

theorem State.sampleLegs_quiet (drdy : BitVec 24) : s.Quiet (s.sampleLegs drdy) :=
  State.Quiet.mapLegs s fun _ _ => rfl

theorem State.numberCycle_quiet : s.Quiet s.numberCycle :=
  .of_fields rfl rfl rfl rfl rfl rfl rfl rfl

theorem State.setGeneration_quiet (active : Bool) : s.Quiet (s.setGeneration active) := by
  unfold State.setGeneration
  exact .after (.setFlagIf _ active .cycLost) (.of_fields rfl rfl rfl rfl rfl rfl rfl rfl)

/-- I_IN, the first global parameter, is no tuning value. -/
theorem stagedInto_iIn (i : SlotId) (staged : Vector (Option Word) 7) (img : Image) (js : List (Fin 7)) :
    (js.foldl (stagedInto i staged) img).iIn = img.iIn :=
  congrArg BitVec.toNat (foldl_stagedInto_other i staged img 0 (by omega) fun _ _ => by omega)

theorem State.applyStaged_quiet (i : SlotId) : s.Quiet (s.applyStaged i) := by
  have himage : s.Quiet { s with image := (List.finRange 7).foldl (stagedInto i (s.slot i).staged) s.image } :=
    { State.Quiet.refl s with iIn := stagedInto_iIn i (s.slot i).staged s.image _ }
  exact himage.trans (.setSlot _ i rfl)

theorem State.applyEntry_quiet (d : DriveLink) (e : Entry) : s.Quiet (s.applyEntry d e) := by
  unfold State.applyEntry
  split
  · exact .setSlot s e.slot (by rw [Slot.applyEntry_eq]; rfl)
  · exact .refl s

theorem State.applyEntries_quiet (d : DriveLink) (es : List Entry) : s.Quiet (s.applyEntries d es) := by
  induction es generalizing s with
  | nil => exact .refl s
  | cons e es ih => exact (s.applyEntry_quiet d e).trans (ih _)

theorem State.intake_quiet (d : DriveLink) : s.Quiet (s.intake d) := by
  have hnothing : s.Quiet (s.setDrive d { s.drive d with
      miss := min ((s.drive d).miss + 1) s.image.holdMax, holdMark := true
      entryIgnored := [], curIgnored := [] }) := .setDrive s d (le_max_right _ _)
  cases hstore : (s.drive d).store with
  | none => rwa [State.intake_of_nothing (.inl hstore)]
  | some held =>
    obtain ⟨tel, taken⟩ := held
    cases taken with
    | true => rwa [State.intake_of_nothing (.inr ⟨tel, hstore⟩)]
    | false =>
      have hdrive : (s.applyEntries d tel.entries).drive d = s.drive d :=
        (congrArg (fun x : State => x.drive d) (s.applyEntries_frame d tel.entries) :)
      rw [State.intake_of_waiting hstore]
      refine (s.applyEntries_quiet d tel.entries).trans (.setDrive _ d ?_)
      rw [hdrive]
      exact le_max_right _ _

theorem State.closeCycle_quiet : s.Quiet s.closeCycle :=
  State.Quiet.mapSlots s fun _ _ => rfl

theorem State.faultCopy_quiet (i : SlotId) : s.Quiet (s.faultCopy i) := State.Quiet.setSlot s i rfl

theorem State.buildSnapshot_quiet (d : DriveLink) : s.Quiet (s.buildSnapshot d) := by
  unfold State.buildSnapshot
  exact .after (.setDrive _ d (le_max_right _ _)) (.setPort s d.toLink (le_max_right _ _))

theorem State.buildSafetySnapshot_quiet : s.Quiet s.buildSafetySnapshot :=
  (State.Quiet.setPort s .s (x := { s.port .s with snapshot := some s.safetyResponse })
    (le_max_right _ _)).trans (.of_fields rfl rfl rfl rfl rfl rfl rfl rfl)

theorem State.steppedFreshness_quiet : s.Quiet s.steppedFreshness :=
  .of_fields rfl rfl rfl rfl rfl rfl rfl rfl

/-- A queue cut by a link reset is no longer than it was (R150). -/
theorem DriveRec.afterReset_queue_le (x : DriveRec) : x.afterReset.queue.length ≤ x.queue.length := by
  simp only [DriveRec.afterReset]
  split <;> simp

theorem State.linkResetNow_quiet (k : Link) : s.Quiet (s.linkResetNow k) := by
  have hport : s.Quiet (s.setPort k (s.port k).dropTransfer) := .setPort s k (Nat.zero_le _)
  have hdrive : ∀ d : DriveLink, k = d.toLink → s.Quiet (s.linkResetNow k) := fun d hd => by
    subst hd
    rw [State.linkResetNow_drive]
    exact hport.trans (.setDrive _ d ((DriveRec.afterReset_queue_le _).trans (le_max_right _ _)))
  cases k with
  | a => exact hdrive .a rfl
  | b => exact hdrive .b rfl
  | s => exact hport.trans (.of_fields rfl rfl rfl rfl rfl rfl rfl rfl)

theorem State.linkResetWork_quiet (k : Link) : s.Quiet (s.linkResetWork k) := by
  unfold State.linkResetWork
  split
  · exact s.linkResetNow_quiet k
  · exact .refl s

/-! ### Requests -/

theorem State.removeGone_quiet (i : SlotId) : s.Quiet (s.removeGone i) := State.Quiet.setSlot s i rfl

theorem doReadFaults_quiet (d : DriveLink) (r : Request) : s.Quiet (doReadFaults d r s).1 := by
  unfold doReadFaults
  split
  · next h =>
    dsimp only
    by_cases h0 : r.arg1 = 0#16
    · rw [if_pos h0]
      by_cases ho : (s.slot ⟨r.target.toNat, h⟩).owner = some d
      · rw [if_pos ho]
        exact s.removeGone_quiet _
      · rw [if_neg ho]
        exact .refl s
    · rw [if_neg h0]
      split <;> exact .refl s
  · exact .refl s

theorem doReadGlobal_quiet (d : DriveLink) (r : Request) : s.Quiet (doReadGlobal d r s).1 :=
  .of_fields rfl rfl rfl rfl rfl rfl rfl rfl

theorem doReadParam_quiet (d : DriveLink) (r : Request) : s.Quiet (doReadParam d r s).1 := by
  unfold doReadParam
  split <;> exact .refl s

theorem State.stageItem_quiet (i : Item) (v : Word) : s.Quiet (s.stageItem i v) := by
  unfold State.stageItem
  split
  · split
    · exact .setSlot s _ rfl
    · exact .refl s
  · exact .refl s

/-- A queue that has lost its head is no longer than it was. -/
theorem State.dequeued_quiet {d : DriveLink} {r : Request} {rest : List Request}
    (hq : (s.drive d).queue = r :: rest) : s.Quiet (s.dequeued d rest) :=
  .setDrive s d ((Nat.le_succ rest.length).trans (by simp [hq]))

theorem State.respond_quiet (d : DriveLink) (r : Request) (code : ResultCode) (v1 v2 : Word) :
    s.Quiet (s.respond d r code v1 v2) := State.Quiet.setDrive s d (le_max_right _ _)

/-- A request served does to the rules what its block does (R169). -/
theorem State.serveWith_quiet {s : State} {d : DriveLink} {r : Request} {rest : List Request}
    (hq : (s.drive d).queue = r :: rest) {f : DriveLink → Request → State → State × Answer}
    (hf : (s.dequeued d rest).Quiet (f d r (s.dequeued d rest)).1) : s.Quiet (s.serveWith d f) := by
  rw [State.serveWith_eq_respond hq]
  exact ((s.dequeued_quiet hq).trans hf).trans (State.respond_quiet _ d r _ _ _)

theorem State.serveStore_quiet (d : DriveLink) : s.Quiet (s.serveStore d) := by
  unfold State.serveStore
  split
  · exact .refl s
  · next r rest hq =>
    split
    · exact State.serveWith_quiet hq (.refl _)
    · exact .after (.setDrive _ d (le_max_right _ _)) (.of_fields rfl rfl rfl rfl rfl rfl rfl rfl)

theorem State.storeComplete_quiet (d : DriveLink) (a : Answer) : s.Quiet (s.storeComplete d a) := by
  have hdone : s.Quiet { s with storeOp := none } := .of_fields rfl rfl rfl rfl rfl rfl rfl rfl
  unfold State.storeComplete
  dsimp only
  split
  · exact hdone.trans (.setDrive _ d (le_max_right _ _))
  · next r rest hq =>
    refine hdone.trans (.setDrive _ d ((Nat.le_succ rest.length).trans ?_))
    have hlen : (({ s with storeOp := none } : State).drive d).queue.length = rest.length + 1 :=
      congrArg List.length hq
    exact hlen.ge.trans (le_max_right _ _)

theorem State.pageDone_quiet (op : StoreOp) (page : Page) : s.Quiet (s.pageDone op page) := by
  unfold State.pageDone
  dsimp only
  split
  · split
    · exact .of_fields rfl rfl rfl rfl rfl rfl rfl rfl
    · exact .after (State.storeComplete_quiet _ _ _) (.of_fields rfl rfl rfl rfl rfl rfl rfl rfl)
  · exact .after (State.storeComplete_quiet _ _ _) (.of_fields rfl rfl rfl rfl rfl rfl rfl rfl)

theorem State.storePageDone_quiet (page : Page) : s.Quiet (s.storePageDone page) := by
  unfold State.storePageDone
  split
  · exact s.pageDone_quiet _ page
  · exact .refl s

/-! ### Samples -/

theorem State.lineSamples_quiet (pins : FastPins) : s.Quiet (s.lineSamples pins) :=
  { State.Quiet.refl s with
    bytes := fun k => by
      rw [State.lineSamples_port]
      exact le_max_right _ _ }

theorem State.takeBits_quiet (g : GroupId) (ibs : BitVec 6) (tbs vbs : Bool) :
    s.Quiet (s.takeBits g ibs tbs vbs) := by
  have hframe := s.takeBits_frame g ibs tbs vbs
  have hdc : (s.takeBits g ibs tbs vbs).dc.kr = s.dc.kr := by
    rw [State.takeBits_dc]
    split <;> rfl
  have hlegs : ∀ l, ((s.takeBits g ibs tbs vbs).leg l).core = (s.leg l).core := fun l => by
    rw [State.takeBits_leg]
    split <;> rfl
  generalize s.takeBits g ibs tbs vbs = t at hframe hdc hlegs
  exact .of_records (congrArg State.mode hframe :) (congrArg State.image hframe :)
    (congrArg (fun x : State => x.safety.toffHigh) hframe :) hdc (congrArg State.ports hframe :)
    (congrArg State.drives hframe :)
    (fun i => (congrArg (fun x : State => (x.slot i).core) hframe :)) hlegs

theorem State.readTemps_quiet : s.Quiet s.readTemps := by
  have hframe := s.readTemps_frame
  generalize s.readTemps = t at hframe
  exact .of_fields (congrArg State.mode hframe :) (congrArg State.image hframe :)
    (congrArg (fun x : State => x.safety.toffHigh) hframe :)
    (congrArg (fun x : State => x.dc.kr) hframe :) (congrArg State.ports hframe :)
    (congrArg State.drives hframe :) (congrArg State.slots hframe :) (congrArg State.legs hframe :)

/-! ### Links -/

theorem State.transferStart_quiet (k : Link) : s.Quiet (s.transferStart k) := by
  unfold State.transferStart
  split
  · exact .refl s
  · split
    · exact .setPort s k (le_max_right _ _)
    · exact .setPort s k (Nat.zero_le _)

/-- No more than 255 bytes of a transfer are kept (R163). -/
theorem Port.bitIn_bytes_le (p : Port) (bit : Bool) : (p.bitIn bit).bytes.length ≤ max 255 p.bytes.length := by
  unfold Port.bitIn
  dsimp only
  split
  · dsimp only
    split
    · next h =>
      rw [List.length_append, List.length_singleton]
      exact (Nat.succ_le_of_lt h).trans (le_max_left _ _)
    · exact le_max_right _ _
  · exact le_max_right _ _

theorem State.linkClockEdge_quiet (k : Link) (edge : Edge) (sdi : Bool) :
    s.Quiet (s.linkClockEdge k edge sdi) := by
  unfold State.linkClockEdge
  split
  · exact .refl s
  · cases edge with
    | rising =>
      refine .setPort s k ?_
      unfold Port.risingEdge
      dsimp only
      split
      · exact Port.bitIn_bytes_le _ sdi
      · exact le_max_right _ _
    | falling =>
      refine .setPort s k ?_
      unfold Port.fallingEdge
      split <;> exact le_max_right _ _

/-- A request joins a queue of less than two, or is dropped (R168). -/
theorem DriveRec.accept_queue_le (x : DriveRec) (t : Telegram) :
    (x.accept t).queue.length ≤ max 2 x.queue.length := by
  unfold DriveRec.accept
  dsimp only
  split
  · exact le_max_right _ _
  · split
    · next h =>
      dsimp only
      rw [List.length_append, List.length_singleton]
      exact (Nat.succ_le_of_lt h).trans (le_max_left _ _)
    · exact le_max_right _ _

theorem State.linkFailed_quiet (k : Link) : s.Quiet (s.linkFailed k) :=
  (State.Quiet.setPort s k (x := { s.port k with failed := true }) (le_max_right _ _)).trans
    (.of_fields rfl rfl rfl rfl rfl rfl rfl rfl)

theorem State.linkPassed_quiet (k : Link) : s.Quiet (s.linkPassed k) :=
  State.Quiet.setPort s k (le_max_right _ _)

theorem State.driveTelegram_quiet (d : DriveLink) (bits : Nat) (bytes : List Byte) :
    s.Quiet (s.driveTelegram d bits bytes) := by
  unfold State.driveTelegram
  split
  · exact (s.linkFailed_quiet d.toLink).trans (.setDrive _ d (le_max_right _ _))
  · exact (s.linkPassed_quiet d.toLink).trans (.setDrive _ d (DriveRec.accept_queue_le _ _))

theorem State.received_quiet (bytes : List Byte) : s.Quiet (s.received bytes) := by
  have hframe := State.received_frame (s := s) (bytes := bytes)
  have htoff : (s.received bytes).safety.toffHigh = s.safety.toffHigh := by rw [State.received_eq]
  have hslots : ∀ i, ((s.received bytes).slot i).core = (s.slot i).core := fun i => by
    rw [State.received_slot]
    rfl
  generalize s.received bytes = t at hframe htoff hslots
  exact .of_records (congrArg State.mode hframe :) (congrArg State.image hframe :) htoff
    (congrArg (fun x : State => x.dc.kr) hframe :) (congrArg State.ports hframe :)
    (congrArg State.drives hframe :) hslots
    (fun l => (congrArg (fun x : State => (x.leg l).core) hframe :))

end Sys2Proof.Machine
end

section
/-! SUPPORT. What a step can do to what the rules look at: every work and every event is a row of a few
operations, each with the condition under which it is done. -/

namespace Sys2Proof.Machine

/-! ### The operations -/

/-- A slot enabled together with its partner (R8). -/
def State.enableSlots (s : State) (i : SlotId) : State :=
  let t := s.setSlot i (s.slot i).enabled
  match (s.slot i).partner with
  | none => t
  | some p => t.setSlot p (t.slot p).enabled

/-- One operation of the part while it runs. -/
inductive State.Move : State → State → Prop where
  | quiet {s t : State} (h : s.Quiet t) : s.Move t
  | unmark (s : State) : s.Move (s.mapSlots fun _ x => { x with stopLoaded := false })
  | notice (s : State) (i : SlotId) (c : Cause) (leg : Option LegId) : s.Move (s.takeNotice i c leg)
  | toff (s : State) (high : Bool) : s.Move (s.acceptToff high)
  | reform (s : State) : s.Move s.reformPermissions
  | exitTest (s : State) : s.Move s.exitTest
  | allocate (s : State) : s.Move s.allocate
  | countdown (s : State) : s.Move s.countdown
  | stopExpiry (s : State) (i : SlotId) : s.Move (s.stopExpiryWork i)
  | compute (s : State) (g : GroupId) : s.Move (s.computeGroup g)
  | calComplete (s : State) (i : SlotId) : s.Move (s.calComplete i)
  | periodStart (s : State) (g : GroupId) : s.Move (s.periodStart g)
  | readVdc (s : State) : s.Move s.readVdc
  | turnOn (s : State) (l : LegId) {p : TurnOn} (hp : (s.leg l).pendingOn = some p) :
      s.Move (s.setLeg l ((s.leg l).completeTurnOn p.switch))
  | retarget (s : State) (l : LegId) (dt now : Nat) (x : Target)
      (hd : (s.leg l).drive = .switching ∨ (s.leg l).pendingOn ≠ none) :
      s.Move (s.setLeg l ((s.leg l).setTarget dt now x))
  | claim (s : State) (i : SlotId) (d : DriveLink) (hm : s.mode = .operate) (ho : (s.slot i).owner = none) :
      s.Move (s.setSlot i { s.slot i with state := .claimed, owner := some d })
  | release (s : State) (i : SlotId) (hs : (s.slot i).state = .claimed ∨ (s.slot i).state = .offHeld) :
      s.Move (s.setSlot i (s.slot i).released)
  | enable (s : State) (i : SlotId) (hs : (s.slot i).state = .claimed)
      (hp : (s.slot i).perm.permits = true) (ht : s.safety.toffHigh = true)
      (hpair : ∀ p, (s.slot i).partner = some p → (s.slot p).state = .claimed) : s.Move (s.enableSlots i)
  | disable (s : State) (i : SlotId) (hs : (s.slot i).state.isActive = true) :
      s.Move ((s.members i).foldl State.disableSlot s)
  | clear (s : State) (i : SlotId) (hs : (s.slot i).state = .fault) :
      s.Move (s.setSlot i { s.slot i with state := .claimed, firstFault := none })
  | reserve (s : State) (i : SlotId) (n : Nat) (ho : (s.slot i).owner ≠ none)
      (hn : s.otherResv i + n ≤ s.image.iIn) : s.Move (s.setSlot i { s.slot i with resv := n })
  | writeItem (s : State) (i : Item) (v : Word) (hw : s.mode = .setup ∨ i.tuning = true) :
      s.Move (s.writeItem i v)
  | enterSetup (s : State) (hp : ∀ i, (s.slot i).state = .parked) : s.mode = .operate →
      s.Move s.setupEntered.reformPermissions
  | leaveSetup (s : State) (hm : s.mode = .setup) (hv : s.image.validate = none) : s.Move s.toOperate
  | force (s : State) (l : LegId) (dt now : Nat) (d : Drive) (hf : (s.leg l).func = .forced)
      (hd : d = .off ∨ s.safety.toffHigh = true) : s.Move (s.setLeg l ((s.leg l).drivenTo dt now d))

/-- Operations one after another. -/
def State.Moves : State → State → Prop := Relation.ReflTransGen State.Move

namespace State.Moves

variable {s t u : State}

theorem refl (s : State) : s.Moves s := Relation.ReflTransGen.refl

theorem trans (h : s.Moves t) (k : t.Moves u) : s.Moves u := Relation.ReflTransGen.trans h k

theorem of_move (h : s.Move t) : s.Moves t := Relation.ReflTransGen.single h

theorem of_quiet (h : s.Quiet t) : s.Moves t := of_move (.quiet h)

theorem then_quiet (h : s.Moves t) (k : t.Quiet u) : s.Moves u := h.trans (of_quiet k)

theorem then_move (h : s.Moves t) (k : t.Move u) : s.Moves u := Relation.ReflTransGen.tail h k

/-- What every operation keeps, operations one after another keep. -/
theorem keeps {P : State → Prop} (hP : ∀ s t, s.Move t → P s → P t) (h : s.Moves t) (hs : P s) : P t := by
  induction h with
  | refl => exact hs
  | tail _ hmove ih => exact hP _ _ hmove ih

end State.Moves

variable (s : State)

/-! ### Notices -/

theorem State.takeNotices_moves (is : List SlotId) (c : Cause) : s.Moves (s.takeNotices is c) := by
  induction is generalizing s with
  | nil => exact .refl s
  | cons i is ih => exact (State.Moves.of_move (.notice s i c none)).trans (ih _)

theorem State.noticesIf_moves (b : Bool) (order : List SlotId) (c : Cause) :
    s.Moves (s.noticesIf b order c) := by
  cases b
  · exact .refl s
  · exact s.takeNotices_moves _ c

theorem State.streamNotice_moves (l : LegId) : s.Moves (s.streamNotice l) := by
  unfold State.streamNotice
  repeat' split
  · exact .of_move (.notice s _ _ _)
  · exact .refl s
  · exact .refl s

theorem State.driverNotice_moves (l : LegId) : s.Moves (s.driverNotice l) := by
  unfold State.driverNotice
  repeat' split
  · exact .refl s
  · exact .of_move (.notice s _ _ _)
  · exact .refl s

theorem State.overcurrentNotice_moves (l : LegId) : s.Moves (s.overcurrentNotice l) := by
  unfold State.overcurrentNotice
  repeat' split
  · exact .of_move (.notice s _ _ _)
  · exact .refl s
  · exact .refl s

theorem State.currentSumNotice_moves (i : SlotId) : s.Moves (s.currentSumNotice i) := by
  unfold State.currentSumNotice
  split
  · exact .of_move (.notice s _ _ _)
  · exact .refl s

theorem State.legImbalanceNotice_moves (i : SlotId) (ph : Phase) :
    s.Moves (s.legImbalanceNotice i ph) := by
  unfold State.legImbalanceNotice
  split
  · exact .of_move (.notice s _ _ _)
  · exact .refl s

theorem State.staleNotices_moves (d : DriveLink) (order : List SlotId) :
    s.Moves (s.staleNotices d order) := by
  unfold State.staleNotices
  split
  · exact s.takeNotices_moves _ _
  · exact .refl s

/-! ### Requests -/

section
variable {s : State} {d : DriveLink} {r : Request}

/-- What the checks of R5 have found of a slot they let through. -/
theorem slotCheck_ok {needOwner : Bool} {taken : SlotState → Bool} {i : SlotId}
    (h : slotCheck needOwner taken d r s = .ok i) :
    s.mode = .operate ∧ (needOwner = true → (s.slot i).owner = some d) ∧
      taken (s.slot i).state = true := by
  unfold slotCheck at h
  split at h
  · dsimp only at h
    repeat' split at h
    all_goals try cases h
    next hm ho ht => exact ⟨not_not.mp hm, fun hn => by simpa [hn] using ho, by simpa using ht⟩
  · cases h

theorem doClaim_moves : s.Moves (doClaim d r s).1 := by
  unfold doClaim
  split
  · exact .refl s
  · next i hi =>
    obtain ⟨hm, -, -⟩ := slotCheck_ok hi
    dsimp only
    split
    · exact .refl s
    · split
      · split <;> exact .refl s
      · next ho => exact .of_move (.claim s i d hm ho)

theorem doRelease_moves : s.Moves (doRelease d r s).1 := by
  unfold doRelease
  split
  · exact .refl s
  · next i hi =>
    obtain ⟨-, -, hs⟩ := slotCheck_ok hi
    exact .of_move (.release s i (by simpa using hs))

theorem doEnable_moves : s.Moves (doEnable d r s).1 := by
  unfold doEnable
  split
  · exact .refl s
  · next i hi =>
    obtain ⟨-, -, hs⟩ := slotCheck_ok hi
    dsimp only
    split
    · exact .refl s
    · next hp =>
      simp only [not_or, Bool.not_eq_false] at hp
      obtain ⟨hperm, htoff⟩ := hp
      have hclaimed : (s.slot i).state = .claimed := by simpa using hs
      split
      · exact .refl s
      · split
        · next hnone =>
          have hmove := State.Move.enable s i hclaimed hperm htoff (by simp [hnone])
          rw [State.enableSlots, hnone] at hmove
          exact .of_move hmove
        · next p hsome =>
          split
          · exact .refl s
          · next hpair =>
            simp only [not_or, not_not] at hpair
            obtain ⟨hpstate, -⟩ := hpair
            have hmove := State.Move.enable s i hclaimed hperm htoff fun q hq => by
              rw [hsome] at hq
              exact Option.some.inj hq ▸ hpstate
            rw [State.enableSlots, hsome] at hmove
            exact .of_move hmove

theorem doDisable_moves : s.Moves (doDisable d r s).1 := by
  unfold doDisable
  split
  · exact .refl s
  · next i hi =>
    obtain ⟨-, -, hs⟩ := slotCheck_ok hi
    exact .of_move (.disable s i hs)

theorem doClear_moves : s.Moves (doClear d r s).1 := by
  unfold doClear
  split
  · exact .refl s
  · next i hi =>
    obtain ⟨-, -, hs⟩ := slotCheck_ok hi
    have hgone := s.removeGone_quiet i
    dsimp only
    split
    · exact .then_move (.of_quiet hgone) (.clear _ i ((hgone.state i).trans (by simpa using hs)))
    · exact .of_quiet hgone

theorem doReserve_moves : s.Moves (doReserve d r s).1 := by
  unfold doReserve
  split
  · dsimp only
    split
    · exact .refl s
    · split
      · exact .refl s
      · next ho =>
        split
        · exact .refl s
        · split
          · exact .refl s
          · next hn => exact .of_move (.reserve s _ _ (by simp [not_not.mp ho]) (by omega))
  · exact .refl s

/-- A value is written at once in SETUP, and a tuning value outside it too (R21). -/
theorem State.writeAccess_atOnce {i : Item} (h : s.writeAccess d i = .atOnce) :
    s.mode = .setup ∨ i.tuning = true := by
  by_cases hm : s.mode = .setup
  · exact .inl hm
  · refine .inr ?_
    unfold State.writeAccess at h
    cases i with
    | slot n j =>
      by_cases hj : j.val < 7
      · simp [Item.tuning, hj]
      · simp [hj, hm] at h
    | global _ => simp [hm] at h
    | leg _ => simp [hm] at h

theorem doWriteParam_moves : s.Moves (doWriteParam d r s).1 := by
  unfold doWriteParam
  split
  · exact .refl s
  · exact .refl s
  · split
    · exact .refl s
    · next hacc =>
      split
      · exact .refl s
      · exact .of_move (.writeItem s _ _ (State.writeAccess_atOnce hacc))
    · split
      · exact .refl s
      · exact .of_quiet (s.stageItem_quiet _ _)

theorem doEnterSetup_moves (hm : s.mode = .setup ∨ s.mode = .operate) :
    s.Moves (doEnterSetup d r s).1 := by
  unfold doEnterSetup
  split
  · exact .refl s
  · next hsetup =>
    split
    · exact .refl s
    · next hnone =>
      have hparked : ∀ i, (s.slot i).state = .parked := fun i => by
        simpa using List.find?_eq_none.mp hnone i (mem_allSlots i)
      have hmove := State.Move.enterSetup s hparked (hm.resolve_left hsetup)
      unfold State.setupEntered at hmove
      dsimp only
      exact .of_move hmove

theorem doLeaveSetup_moves : s.Moves (doLeaveSetup d r s).1 := by
  unfold doLeaveSetup
  split
  · exact .refl s
  · next hm =>
    split
    · exact .refl s
    · split
      · exact .refl s
      · next hv =>
        dsimp only
        exact .of_move (.leaveSetup s (not_not.mp hm) hv)

theorem doForceLeg_moves : s.Moves (doForceLeg d r s).1 := by
  unfold doForceLeg
  split
  · next h =>
    dsimp only
    split
    · exact .refl s
    · split
      · exact .refl s
      · next hf =>
        have hforced := not_not.mp hf
        split
        · exact .then_quiet (.of_move (.force s _ 0 0 .off hforced (.inl rfl))) (.setFlagIf _ true .crossRequest)
        · split
          · exact .refl s
          · next hpermit =>
            refine .of_move (.force s _ _ _ _ hforced ?_)
            by_cases hhigh : (r.arg1 != 0#16) = true <;> by_cases hlow : (r.arg2 != 0#16) = true <;>
              simp [hhigh, hlow] at hpermit ⊢ <;> exact hpermit
  · exact .refl s

/-- A request served is a row of operations when what its block does is one (R169). -/
theorem State.serveWith_moves {f : DriveLink → Request → State → State × Answer}
    (hf : ∀ (r : Request) (u : State), u.mode = s.mode → u.Moves (f d r u).1) :
    s.Moves (s.serveWith d f) := by
  cases hq : (s.drive d).queue with
  | nil =>
    simp only [State.serveWith, hq]
    exact .refl s
  | cons r rest =>
    rw [State.serveWith_eq_respond hq]
    exact ((State.Moves.of_quiet (s.dequeued_quiet hq)).trans (hf r _ rfl)).then_quiet
      (State.respond_quiet _ d r _ _ _)

theorem State.serveClaim_moves : s.Moves (s.serveClaim d) :=
  State.serveWith_moves fun _ _ _ => doClaim_moves

theorem State.serveRelease_moves : s.Moves (s.serveRelease d) :=
  State.serveWith_moves fun _ _ _ => doRelease_moves

theorem State.serveEnable_moves : s.Moves (s.serveEnable d) :=
  State.serveWith_moves fun _ _ _ => doEnable_moves

theorem State.serveDisable_moves : s.Moves (s.serveDisable d) :=
  State.serveWith_moves fun _ _ _ => doDisable_moves

theorem State.serveClear_moves : s.Moves (s.serveClear d) :=
  State.serveWith_moves fun _ _ _ => doClear_moves

theorem State.serveReserve_moves : s.Moves (s.serveReserve d) :=
  State.serveWith_moves fun _ _ _ => doReserve_moves

theorem State.serveReadFaults_moves : s.Moves (s.serveReadFaults d) :=
  State.serveWith_moves fun r u _ => .of_quiet (doReadFaults_quiet u d r)

theorem State.serveReadGlobal_moves : s.Moves (s.serveReadGlobal d) :=
  State.serveWith_moves fun r u _ => .of_quiet (doReadGlobal_quiet u d r)

theorem State.serveReadParam_moves : s.Moves (s.serveReadParam d) :=
  State.serveWith_moves fun r u _ => .of_quiet (doReadParam_quiet u d r)

theorem State.serveWriteParam_moves : s.Moves (s.serveWriteParam d) :=
  State.serveWith_moves fun _ _ _ => doWriteParam_moves

theorem State.serveEnterSetup_moves (hm : s.mode = .setup ∨ s.mode = .operate) :
    s.Moves (s.serveEnterSetup d) :=
  State.serveWith_moves fun _ _ hu => doEnterSetup_moves (hu.symm ▸ hm)

theorem State.serveLeaveSetup_moves : s.Moves (s.serveLeaveSetup d) :=
  State.serveWith_moves fun _ _ _ => doLeaveSetup_moves

theorem State.serveForceLeg_moves : s.Moves (s.serveForceLeg d) :=
  State.serveWith_moves fun _ _ _ => doForceLeg_moves

theorem State.serveUnknown_moves : s.Moves (s.serveUnknown d) :=
  State.serveWith_moves fun _ u _ => .refl u

/-- Requests are served in SETUP and OPERATE alone (R169). -/
theorem State.canServe_mode (h : s.canServe d = true) : s.mode = .setup ∨ s.mode = .operate := by
  simp only [State.canServe, Bool.and_eq_true, Bool.or_eq_true, beq_iff_eq] at h
  obtain ⟨⟨hmode, -⟩, -⟩ := h
  exact hmode

/-- The head of a queue served, whatever its kind (R169). -/
theorem State.serveHead_moves (s : State) (d : DriveLink) : s.Moves (s.serveHead d) := by
  unfold State.serveHead
  split
  · next hserve =>
    split
    · exact .refl s
    · split
      · exact State.serveClaim_moves
      · exact State.serveRelease_moves
      · exact State.serveEnable_moves
      · exact State.serveDisable_moves
      · exact State.serveClear_moves
      · exact State.serveReserve_moves
      · exact State.serveReadFaults_moves
      · exact State.serveReadGlobal_moves
      · exact State.serveReadParam_moves
      · exact State.serveWriteParam_moves
      · exact State.serveEnterSetup_moves (State.canServe_mode hserve)
      · exact State.serveLeaveSetup_moves
      · exact .of_quiet (s.serveStore_quiet d)
      · exact State.serveForceLeg_moves
      · exact State.serveUnknown_moves
  · exact .refl s

end

/-! ### Works -/

theorem State.stepFreshness_moves : s.Moves s.stepFreshness := by
  have hstep := State.Moves.of_quiet s.steppedFreshness_quiet
  unfold State.stepFreshness State.drawTimeout
  split
  · exact (hstep.then_quiet (.setFlagIf _ true .safetyLost)).then_move (.reform _)
  · exact hstep

theorem State.turnOnWork_moves (l : LegId) : s.Moves (s.turnOnWork l) := by
  unfold State.turnOnWork
  repeat' split
  · next hp => exact .of_move (.turnOn s l hp)
  · exact .refl s
  · exact .refl s

/-- Every work is a row of operations. -/
theorem perform_moves (w : Work) : s.Moves (perform w s) := by
  cases w with
  | toffAccept high => exact .of_move (.toff s high)
  | legSamples drdy => exact .of_quiet (s.sampleLegs_quiet drdy)
  | streamNotice l => exact s.streamNotice_moves l
  | driverNotice l => exact s.driverNotice_moves l
  | overcurrent l => exact s.overcurrentNotice_moves l
  | linkReset k => exact .of_quiet (s.linkResetWork_quiet k)
  | cycleEdge => exact .of_quiet s.numberCycle_quiet
  | generation active => exact .of_quiet (s.setGeneration_quiet active)
  | serve d => exact s.serveHead_moves d
  | applyStaged i => exact .of_quiet (s.applyStaged_quiet i)
  | intake d => exact .of_quiet (s.intake_quiet d)
  | stale d => exact s.staleNotices_moves d []
  | closeCycle => exact .of_quiet s.closeCycle_quiet
  | allocate => exact .of_move (.allocate s)
  | freshness => exact s.stepFreshness_moves
  | countdown => exact .of_move (.countdown s)
  | stopExpiry i => exact .of_move (.stopExpiry s i)
  | faultCopy i => exact .of_quiet (s.faultCopy_quiet i)
  | snapshot d => exact .of_quiet (s.buildSnapshot_quiet d)
  | safetySnapshot => exact .of_quiet s.buildSafetySnapshot_quiet
  | compute g => exact .of_move (.compute s g)
  | currentSum i => exact s.currentSumNotice_moves i
  | legImbalance i ph => exact s.legImbalanceNotice_moves i ph
  | calibrationComplete i => exact .of_move (.calComplete s i)
  | turnOn l => exact s.turnOnWork_moves l

/-! ### Runs of works and the clock -/

section
variable {s t : State}

theorem State.Moves.agenda (ws : List Work) (h : s.Moves t) : s.Moves { t with agenda := ws } :=
  h.then_quiet (.agenda t ws)

theorem State.Moves.perform (w : Work) (h : s.Moves t) : s.Moves (Machine.perform w t) :=
  h.trans (perform_moves t w)

theorem State.Moves.settle (h : s.Moves t) : s.Moves t.settle :=
  State.settle_keeps (fun _ ws => .agenda ws) (fun w _ => .perform w) t h

theorem State.Moves.clock (n : Nat) (h : s.Moves t) :
    s.Moves (({ t with now := n }).mapSlots fun _ x => { x with stopLoaded := false }) := by
  have hnow : t.Quiet { t with now := n } := .of_fields rfl rfl rfl rfl rfl rfl rfl rfl
  exact (h.then_quiet hnow).then_move (.unmark _)

theorem State.Moves.arrive (n : Nat) (h : s.Moves t) : s.Moves (t.arrive n) :=
  State.arrive_keeps (fun _ ws => .agenda ws) (fun w _ => .perform w) (fun _ n => .clock n) t n h

theorem State.Moves.arriveAt (due : State → Nat) (h : s.Moves t) : s.Moves (t.arriveAt due) :=
  State.arriveAt_keeps (fun _ ws => .agenda ws) (fun w _ => .perform w) (fun _ n => .clock n) t due h

theorem State.Moves.post (order due : List Work) (h : s.Moves t) : s.Moves (t.post order due) :=
  State.post_keeps (fun _ ws => .agenda ws) (fun w _ => .perform w) t order due h

theorem State.Moves.takeRow (w : Work) (due : State → Bool) {f : State → State}
    (hf : ∀ u, due u = true → u.Moves (f u)) (h : s.Moves t) : s.Moves (t.takeRow w due f) := by
  unfold State.takeRow
  split
  · dsimp only
    split
    · next hdue =>
      exact runWorks_keeps (fun _ ws => .agenda ws) (fun w _ => .perform w) _ _
        ((performAll_keeps (fun w _ => .perform w) _ _ h).trans (hf _ hdue))
    · exact h
  · exact h

end

/-! ### Events -/

section
variable {s t : State}

/-- A command that takes a work of its own row. -/
theorem State.takeRow_moves (w : Work) (due : State → Bool) {f : State → State}
    (hf : ∀ u, due u = true → u.Moves (f u)) : s.Moves (s.takeRow w due f) :=
  .takeRow w due hf (.refl s)

/-- A command that serves a request of its own kind. -/
theorem State.takeServed_moves (d : DriveLink) (k : Kind) {f : State → State}
    (hf : ∀ u : State, u.mode = .setup ∨ u.mode = .operate → u.Moves (f u)) : s.Moves (s.takeServed d k f) :=
  State.takeRow_moves _ _ fun u hu => hf u (State.canServe_mode (Bool.and_eq_true_iff.mp hu).1)

theorem State.fastSampleEvent_moves (pins : FastPins) (order : List Work) :
    s.Moves (s.fastSampleEvent pins order) := by
  unfold State.fastSampleEvent
  split
  · exact .refl s
  · refine .post _ _ (.then_quiet ?_ (State.lineSamples_quiet _ pins))
    unfold State.atFastSample
    exact (State.Moves.arrive _ (.refl s)).then_quiet (.of_fields rfl rfl rfl rfl rfl rfl rfl rfl)

theorem State.vdcEvent_moves (order : List SlotId) : s.Moves (s.vdcEvent order) := by
  rw [State.vdcEvent_eq]
  exact ((State.Moves.of_move (.readVdc s)).trans (State.noticesIf_moves _ _ _ _)).trans
    (State.noticesIf_moves _ _ _ _)

theorem State.vDcSampleEvent_moves (order : List SlotId) : s.Moves (s.vDcSampleEvent order) := by
  unfold State.vDcSampleEvent
  split
  · exact .refl s
  · refine State.Moves.trans ?_ (State.vdcEvent_moves order)
    unfold State.atVdcSample
    exact (State.Moves.arrive _ (.refl s)).then_quiet (.of_fields rfl rfl rfl rfl rfl rfl rfl rfl)

theorem State.tempSampleEvent_moves (order : List SlotId) : s.Moves (s.tempSampleEvent order) := by
  unfold State.tempSampleEvent
  split
  · exact .refl s
  · rw [State.tempEvent_eq]
    refine .trans (.then_quiet ?_ (State.readTemps_quiet _)) (State.takeNotices_moves _ _ _)
    unfold State.atTempSample
    exact (State.Moves.arrive _ (.refl s)).then_quiet (.of_fields rfl rfl rfl rfl rfl rfl rfl rfl)

theorem State.modulatorClockEdge_moves (g : GroupId) (ibs : BitVec 6) (tbs vbs : Bool) :
    s.Moves (s.modulatorClockEdge g ibs tbs vbs) := by
  unfold State.modulatorClockEdge
  split
  · exact .refl s
  · refine .then_quiet ?_ (State.takeBits_quiet _ g ibs tbs vbs)
    unfold State.atModulatorEdge
    exact (State.Moves.arrive _ (.refl s)).then_quiet (.of_fields rfl rfl rfl rfl rfl rfl rfl rfl)

theorem State.cycLossTimeout_moves (order : List Work) : s.Moves (s.cycLossTimeout order) := by
  unfold State.cycLossTimeout
  split
  · exact .post _ _ (.then_quiet (.arrive _ (.settle (.refl s))) (State.numberCycle_quiet _))
  · exact .refl s

theorem State.internalCycleEvent_moves (order : List Work) : s.Moves (s.internalCycleEvent order) := by
  unfold State.internalCycleEvent
  split
  · exact .post _ _ (.then_quiet (.arrive _ (.settle (.refl s))) (State.numberCycle_quiet _))
  · exact .refl s

theorem State.periodEvent_moves (g : GroupId) (order : List Work) : s.Moves (s.periodEvent g order) := by
  unfold State.periodEvent
  dsimp only
  split
  · exact .post _ _ (.then_move (.arriveAt _ (.refl s)) (.periodStart _ g))
  · exact .refl s

theorem State.carrierCompareMatch_moves (l : LegId) (slope : Slope) :
    s.Moves (s.carrierCompareMatch l slope) := by
  unfold State.carrierCompareMatch
  dsimp only
  split
  · next h =>
    simp only [State.matchDue, Bool.and_eq_true, beq_iff_eq] at h
    obtain ⟨-, ⟨-, hdrive⟩, -⟩ := h
    exact .then_move (.arriveAt _ (.refl s)) (.retarget _ l _ _ _ (.inl hdrive))
  · exact .refl s

theorem State.deadTimeTurnOn_moves (l : LegId) : s.Moves (s.deadTimeTurnOn l) := by
  unfold State.deadTimeTurnOn
  dsimp only
  have harrive : s.Moves (s.arriveAt (State.turnOnInstant l)) := .arriveAt _ (.refl s)
  split
  · next hp =>
    split
    · exact State.owe_keeps (fun _ ws => .agenda ws) _ _ harrive
    · exact harrive.then_move (.retarget _ l _ _ _ (.inr (by simp [hp])))
  · exact .refl s

/-! ### Links -/

theorem State.safetyReceived_moves (bits : Nat) (bytes : List Byte) :
    s.Moves (s.safetyReceived bits bytes) := by
  unfold State.safetyReceived
  split
  · exact .then_quiet (.of_quiet (s.linkFailed_quiet .s)) (.of_fields rfl rfl rfl rfl rfl rfl rfl rfl)
  · have hpassed := State.Moves.of_quiet (s.linkPassed_quiet .s)
    unfold State.acceptSafety
    split
    · exact hpassed.then_quiet (.of_fields rfl rfl rfl rfl rfl rfl rfl rfl)
    · rw [State.applyFresh_eq]
      exact ((hpassed.then_quiet (State.received_quiet _ bytes)).then_move (.reform _)).then_move
        (.exitTest _)

theorem State.transferEnd_moves (k : Link) {take : State → Nat → List Byte → State}
    (ht : ∀ (u : State) (bits : Nat) (bytes : List Byte), u.Moves (take u bits bytes)) :
    s.Moves (s.transferEnd k take) := by
  unfold State.transferEnd
  split
  · exact .refl s
  · have hreset : s.Moves (s.resetOwed k) :=
      State.takeRow_moves _ _ fun u _ => .of_quiet (u.linkResetWork_quiet k)
    refine .then_quiet ?_ (.setPort _ k (le_max_right _ _))
    split
    · exact hreset.trans (ht _ _ _)
    · exact hreset

/-! ### Start-up -/

theorem State.loadPageRead_moves : s.Moves s.loadPageRead := by
  unfold State.loadPageRead
  split
  · split
    · exact (State.Moves.arrive _ (.refl s)).then_quiet (.of_fields rfl rfl rfl rfl rfl rfl rfl rfl)
    · exact .refl s
  · exact .refl s

/-! ### What the operations leave alone -/

theorem State.mapSlots_sameRest (f : SlotId → Slot → Slot) : s.SameRest (s.mapSlots f) := by
  constructor <;> simp

theorem State.mapLegs_sameRest (f : LegId → Leg → Leg) : s.SameRest (s.mapLegs f) := by
  constructor <;> simp

theorem State.setLeg_sameRest (l : LegId) (x : Leg) : s.SameRest (s.setLeg l x) := by
  constructor <;> rfl

/-- A state that differs in slots and legs alone. -/
theorem State.SameRest.of_frame (h : { t with slots := s.slots, legs := s.legs } = s) : s.SameRest t := by
  constructor
  exacts [(congrArg State.groups h :), (congrArg State.dc h :), (congrArg State.cyc h :),
    (congrArg State.safety h :), (congrArg State.ports h :), (congrArg State.drives h :),
    (congrArg State.mode h :), (congrArg State.image h :), (congrArg State.nv h :),
    (congrArg State.loadBuf h :), (congrArg State.loadPage h :), (congrArg State.signature h :),
    (congrArg State.imageBad h :), (congrArg State.storeOp h :), (congrArg State.globalSet h :),
    (congrArg State.now h :), (congrArg State.lastFast h :), (congrArg State.lastVdc h :),
    (congrArg State.lastTemp h :), (congrArg State.agenda h :), (congrArg State.pending h :)]

theorem State.allocate_sameRest : s.SameRest s.allocate := by
  by_cases hm : s.mode = .operate
  · rw [State.allocate_of_operate hm]
    have hframe := s.putShares_frame s.image.kRise s.shares
    generalize s.putShares s.image.kRise s.shares = t at hframe
    exact .of_frame (congrArg (fun x : State => { x with legs := s.legs }) hframe :)
  · rw [State.allocate, if_neg hm]
    exact .refl s

theorem State.computeGroup_sameRest (g : GroupId) : s.SameRest (s.computeGroup g) :=
  .of_frame (s.computeGroup_frame g)

theorem State.stopExpiryWork_sameRest (i : SlotId) : s.SameRest (s.stopExpiryWork i) := by
  unfold State.stopExpiryWork
  split
  · dsimp only
    split
    · exact s.haltSlot_sameRest i _
    · split
      · exact (s.haltSlot_sameRest i _).trans (State.haltSlot_sameRest _ _ _)
      · exact s.haltSlot_sameRest i _
  · exact .refl s

/-- Operations of one kind in a row leave alone what each of them does. -/
theorem State.SameRest.foldl {α : Type} {f : State → α → State} (hf : ∀ (u : State) x, u.SameRest (f u x))
    (xs : List α) (s : State) : s.SameRest (xs.foldl f s) := by
  induction xs generalizing s with
  | nil => exact .refl s
  | cons x xs ih => exact (hf s x).trans (ih _)

theorem State.calPass_sameRest (i : SlotId) : s.SameRest (s.calPass i) :=
  (s.mapLegs_sameRest _).trans (State.setSlot_sameRest _ i _)

theorem State.calFail_sameRest (i : SlotId) (leg : Option LegId) : s.SameRest (s.calFail i leg) := by
  cases leg with
  | none => exact s.recordFault_sameRest i _ _
  | some l => exact s.recordFault_sameRest i _ _

theorem State.calComplete_sameRest (i : SlotId) : s.SameRest (s.calComplete i) := by
  unfold State.calComplete
  split
  · dsimp only
    split
    · exact .foldl (fun (u : State) m => u.calPass_sameRest m) _ s
    · exact .foldl (fun (u : State) m => u.calFail_sameRest m _) _ s
  · exact .refl s

theorem State.disableSlot_sameRest (i : SlotId) : s.SameRest (s.disableSlot i) := by
  unfold State.disableSlot
  cases (s.slot i).state with
  | calibrating => exact s.haltSlot_sameRest i _
  | run => exact s.haltSlot_sameRest i _
  | stopping => exact s.haltSlot_sameRest i _
  | _ => exact .refl s

theorem State.enableSlots_sameRest (i : SlotId) : s.SameRest (s.enableSlots i) := by
  unfold State.enableSlots
  dsimp only
  split
  · exact s.setSlot_sameRest i _
  · exact (s.setSlot_sameRest i _).trans (State.setSlot_sameRest _ _ _)

end

end Sys2Proof.Machine
end

section
/-! SUPPORT. One step of the part: operations in a row, a device reset, the release of RST, or load complete
out of LOADING. -/

namespace Sys2Proof.Machine

variable {s t u : State}

theorem State.periodStart_frame (g : GroupId) :
    { s.periodStart g with slots := s.slots, legs := s.legs, groups := s.groups } = s := by
  simp only [State.periodStart, State.mapSlots, State.mapLegs, State.setGroup]

theorem State.readVdc_frame :
    { s.readVdc with legs := s.legs, dc := s.dc, globalSet := s.globalSet } = s := by
  simp only [State.readVdc_eq, State.mapLegs]

/-- An operation changes the mode as a request served in SETUP or OPERATE does, or not at all (R182). -/
theorem State.Move.mode_eq_or (h : s.Move t) :
    t.mode = s.mode ∨ s.mode = .operate ∧ t.mode = .setup ∨ s.mode = .setup ∧ t.mode = .operate := by
  cases h with
  | quiet h => exact .inl h.mode
  | unmark => exact .inl (s.mapSlots_sameRest _).mode
  | notice i c leg => exact .inl (s.takeNotice_sameRest i c leg).mode
  | toff high =>
    cases high with
    | true =>
      exact .inl (State.exitTest_sameRest (s := { s with safety := { s.safety with toffHigh := true } })).mode
    | false => exact .inl (s.acceptToff_low_sameRest.mode.trans (State.mapLegs_mode _ _))
  | reform => exact .inl s.reformPermissions_sameRest.mode
  | exitTest => exact .inl State.exitTest_sameRest.mode
  | allocate => exact .inl State.allocate_sameRest.mode
  | countdown => exact .inl (s.mapSlots_sameRest _).mode
  | stopExpiry i => exact .inl (State.stopExpiryWork_sameRest i).mode
  | compute g => exact .inl (State.computeGroup_sameRest g).mode
  | calComplete i => exact .inl (State.calComplete_sameRest i).mode
  | periodStart g => exact .inl (congrArg State.mode (s.periodStart_frame g) :)
  | readVdc => exact .inl (congrArg State.mode s.readVdc_frame :)
  | turnOn | retarget | force => exact .inl rfl
  | claim | release | clear | reserve => exact .inl rfl
  | enable i => exact .inl (State.enableSlots_sameRest i).mode
  | disable i => exact .inl (State.SameRest.foldl (fun (u : State) j => u.disableSlot_sameRest j) _ s).mode
  | writeItem i v => exact .inl (congrArg State.mode (s.writeItem_frame i v) :)
  | enterSetup _ hm =>
    exact .inr (.inl ⟨hm, (State.reformPermissions_sameRest _).mode.trans s.setupEntered_sameRest.mode⟩)
  | leaveSetup hm => exact .inr (.inr ⟨hm, s.toOperate_sameRest.mode⟩)

/-- In LOADING no request is served (R169), and nothing else has a say in the mode. -/
theorem State.Moves.keeps_loading (h : s.Moves t) (hm : s.mode = .loading) : t.mode = .loading :=
  h.keeps (P := fun u => u.mode = .loading)
    (fun u v hmove hu => by
      obtain hv | ⟨hu', -⟩ | ⟨hu', -⟩ := hmove.mode_eq_or
      · rw [hv, hu]
      · rw [hu] at hu'
        cases hu'
      · rw [hu] at hu'
        cases hu')
    hm

/-- What a command can do. -/
inductive State.Change (s : State) : State → Prop where
  | moves {t : State} (h : s.Moves t) : s.Change t
  | reset : s.Change s.deviceReset
  | released (hm : s.mode = .reset) : s.Change s.rstReleased
  | loaded {u : State} (h : s.Moves u) (hm : u.mode = .loading) : s.Change u.finishLoading

theorem State.loadComplete_change (s : State) : s.Change s.loadComplete := by
  unfold State.loadComplete
  split
  · next h =>
    obtain ⟨hm, -⟩ := h
    have harrive : s.Moves (s.arrive Config.loadingCounts) := .arrive _ (.refl s)
    exact .loaded harrive (harrive.keeps_loading hm)
  · exact .moves (.refl s)

theorem State.rstReleased_change (s : State) : s.Change s.rstReleased := by
  by_cases hm : s.mode = .reset
  · exact .released hm
  · have hsame : s.rstReleased = s := if_neg hm
    rw [hsame]
    exact .moves (.refl s)

/-- What each command of the table can do. -/
theorem exec_change (c : Instr) (s : State) : ∃ t, exec c s = .next t ∧ s.Change t := by
  have moved {t : State} (h : s.Moves t) :
      ∃ u, (Host.Outcome.next t : Host.Outcome State Fault Refusal) = .next u ∧ s.Change u := ⟨t, rfl, .moves h⟩
  cases c with
  | deviceReset => exact ⟨_, rfl, .reset⟩
  | rstReleased => exact ⟨_, rfl, s.rstReleased_change⟩
  | loadPageRead => exact moved State.loadPageRead_moves
  | loadComplete => exact ⟨_, rfl, s.loadComplete_change⟩
  | fastSampleEvent pins order => exact moved (State.fastSampleEvent_moves pins order)
  | overcurrent leg => exact moved (State.takeRow_moves _ _ fun u _ => u.overcurrentNotice_moves leg)
  | cycLossTimeout order => exact moved (State.cycLossTimeout_moves order)
  | internalCycleEvent order => exact moved (State.internalCycleEvent_moves order)
  | setpointStale link order => exact moved (State.takeRow_moves _ _ fun u _ => u.staleNotices_moves link order)
  | safetyTimeout => exact moved (State.takeRow_moves _ _ fun u _ => u.stepFreshness_moves)
  | stopCounterExpiry slot => exact moved (State.takeRow_moves _ _ fun u _ => .of_move (.stopExpiry u slot))
  | claim link => exact moved (State.takeServed_moves _ _ fun _ _ => State.serveClaim_moves)
  | release link => exact moved (State.takeServed_moves _ _ fun _ _ => State.serveRelease_moves)
  | enable link => exact moved (State.takeServed_moves _ _ fun _ _ => State.serveEnable_moves)
  | disable link => exact moved (State.takeServed_moves _ _ fun _ _ => State.serveDisable_moves)
  | clear link => exact moved (State.takeServed_moves _ _ fun _ _ => State.serveClear_moves)
  | reserve link => exact moved (State.takeServed_moves _ _ fun _ _ => State.serveReserve_moves)
  | readFaults link => exact moved (State.takeServed_moves _ _ fun _ _ => State.serveReadFaults_moves)
  | readGlobal link => exact moved (State.takeServed_moves _ _ fun _ _ => State.serveReadGlobal_moves)
  | readParam link => exact moved (State.takeServed_moves _ _ fun _ _ => State.serveReadParam_moves)
  | writeParam link => exact moved (State.takeServed_moves _ _ fun _ _ => State.serveWriteParam_moves)
  | enterSetup link => exact moved (State.takeServed_moves _ _ fun _ hm => State.serveEnterSetup_moves hm)
  | leaveSetup link => exact moved (State.takeServed_moves _ _ fun _ _ => State.serveLeaveSetup_moves)
  | store link => exact moved (State.takeServed_moves _ _ fun u _ => .of_quiet (u.serveStore_quiet link))
  | storePageDone page => exact moved (.of_quiet (s.storePageDone_quiet page))
  | forceLeg link => exact moved (State.takeServed_moves _ _ fun _ _ => State.serveForceLeg_moves)
  | unknownKind link => exact moved (State.takeServed_moves _ _ fun _ _ => State.serveUnknown_moves)
  | transferStart link => exact moved (.of_quiet (s.transferStart_quiet link))
  | driveCommandTelegram link =>
    exact moved (State.transferEnd_moves _ fun u bits bytes => .of_quiet (u.driveTelegram_quiet link bits bytes))
  | safetyTelegram => exact moved (State.transferEnd_moves _ fun _ bits bytes => State.safetyReceived_moves bits bytes)
  | linkReset link => exact moved (State.takeRow_moves _ _ fun u _ => .of_quiet (u.linkResetWork_quiet link))
  | periodEvent group order => exact moved (State.periodEvent_moves group order)
  | calibrationComplete slot => exact moved (State.takeRow_moves _ _ fun u _ => .of_move (.calComplete u _))
  | currentSum slot => exact moved (State.takeRow_moves _ _ fun u _ => u.currentSumNotice_moves slot)
  | legImbalance slot phase => exact moved (State.takeRow_moves _ _ fun u _ => u.legImbalanceNotice_moves slot phase)
  | carrierCompareMatch leg slope => exact moved (State.carrierCompareMatch_moves leg slope)
  | deadTimeTurnOn leg => exact moved (State.deadTimeTurnOn_moves leg)
  | vDcSampleEvent order => exact moved (State.vDcSampleEvent_moves order)
  | tempSampleEvent order => exact moved (State.tempSampleEvent_moves order)
  | modulatorClockEdge group ibs tbs vbs => exact moved (State.modulatorClockEdge_moves group ibs tbs vbs)
  | linkClockEdge link edge sdi => exact moved (.of_quiet (s.linkClockEdge_quiet link edge sdi))

/-- A rule that a step keeps: every operation keeps it, and it stands after a device reset, the release of
RST and load complete. -/
theorem step_keeps {P : State → Prop} (hmove : ∀ s t : State, s.Move t → P s → P t)
    (hreset : ∀ s : State, P s.deviceReset)
    (hreleased : ∀ s : State, s.mode = .reset → P s → P s.rstReleased)
    (hloaded : ∀ s : State, s.mode = .loading → P s → P s.finishLoading) (hs : P s)
    (hstep : step s = .next t) : P t := by
  unfold step at hstep
  split at hstep
  · cases hstep
    exact hs
  · next c rest _ =>
    obtain ⟨u, hu, hchange⟩ := exec_change c { s with pending := rest }
    obtain rfl : u = t := Host.Outcome.next.inj (hu.symm.trans hstep)
    have hrest : P { s with pending := rest } :=
      hmove s _ (.quiet (.of_fields rfl rfl rfl rfl rfl rfl rfl rfl)) hs
    cases hchange with
    | moves h => exact h.keeps hmove hrest
    | reset => exact hreset _
    | released hm => exact hreleased _ hm hrest
    | loaded h hm => exact hloaded _ hm (h.keeps hmove hrest)

end Sys2Proof.Machine
end

section
/-! SUPPORT. What a halt leaves (R16, R17, R64): a slot is as it was or out of the active states, a leg as it was
or off, and nothing else changes; the operations of which this holds. -/

namespace Sys2Proof.Machine

/-! ### One record -/

/-- A slot record that looks as it did, or has left the active states for one of those an owned slot rests
in. -/
def Slot.Rests (x y : Slot) : Prop :=
  y.core = x.core ∨ ∃ st : SlotState, st.isActive = false ∧ st ≠ .parked ∧ x.state.isActive = true ∧
    y.core = (x.leave st).core

/-- A leg record that looks as it did, or is off. -/
def Leg.Rests (x y : Leg) : Prop := y.core = x.core ∨ y.core = x.turnOff.core

namespace Slot.Rests

variable {x y z : Slot}

theorem of_eq (h : y = x) : x.Rests y := .inl (congrArg Slot.core h)

theorem of_leave {st : SlotState} (hst : st.isActive = false) (hp : st ≠ .parked)
    (hx : x.state.isActive = true) (hy : y.core = (x.leave st).core) : x.Rests y :=
  .inr ⟨st, hst, hp, hx, hy⟩

theorem isActive (h : x.Rests y) (hy : y.state.isActive = true) : y.core = x.core := by
  obtain h | ⟨st, hst, -, -, h⟩ := h
  · exact h
  · have hstate : y.state = st := congrArg Slot.Core.state h
    rw [hstate, hst] at hy
    cases hy

theorem trans (h : x.Rests y) (k : y.Rests z) : x.Rests z := by
  obtain k | ⟨st, hst, hp, hy, k⟩ := k
  · exact h.imp k.trans fun ⟨st, hst, hp, hx, h⟩ => ⟨st, hst, hp, hx, k.trans h⟩
  · have hcore := h.isActive hy
    have hstate : y.state = x.state := congrArg Slot.Core.state hcore
    have hleave : (y.leave st).core = (x.leave st).core :=
      congrArg (fun c : Slot.Core => { c with state := st, stopCount := 0, stopLoaded := false }) hcore
    exact .inr ⟨st, hst, hp, hstate ▸ hy, k.trans hleave⟩

/-- What a halt leaves as it was of a slot. -/
theorem kept (h : x.Rests y) :
    y.owner = x.owner ∧ y.partner = x.partner ∧ y.perm = x.perm ∧ y.lPerm = x.lPerm ∧
      y.resv = x.resv ∧ y.kScale = x.kScale ∧ y.demand = x.demand := by
  obtain h | ⟨st, -, -, -, h⟩ := h <;>
    exact ⟨congrArg Slot.Core.owner h, congrArg Slot.Core.partner h, congrArg Slot.Core.perm h,
      congrArg Slot.Core.lPerm h, congrArg Slot.Core.resv h, congrArg Slot.Core.kScale h,
      congrArg Slot.Core.demand h⟩

theorem parked_iff (h : x.Rests y) : y.state = .parked ↔ x.state = .parked := by
  obtain h | ⟨st, -, hp, hx, h⟩ := h
  · have hstate : y.state = x.state := congrArg Slot.Core.state h
    rw [hstate]
  · have hstate : y.state = st := congrArg Slot.Core.state h
    rw [hstate]
    refine ⟨fun e => absurd e hp, fun e => ?_⟩
    rw [e] at hx
    cases hx

end Slot.Rests

namespace Leg.Rests

variable {x y z : Leg}

theorem of_eq (h : y = x) : x.Rests y := .inl (congrArg Leg.core h)

theorem of_eq_or (h : y = x ∨ y = x.turnOff) : x.Rests y := h.imp (congrArg Leg.core) (congrArg Leg.core)

theorem trans (h : x.Rests y) (k : y.Rests z) : x.Rests z := by
  have hfunc : y.func = x.func := h.elim (congrArg Leg.Core.func) (congrArg Leg.Core.func)
  obtain k | k := k
  · exact h.imp k.trans k.trans
  · exact .inr (k.trans (congrArg (Leg.Core.mk · .off .none false false none none) hfunc))

theorem func (h : x.Rests y) : y.func = x.func := h.elim (congrArg Leg.Core.func) (congrArg Leg.Core.func)

end Leg.Rests

/-! ### The whole part -/

/-- Slots and legs are as they were or at rest, and nothing else has changed. -/
structure State.Halts (s t : State) : Prop where
  rest : s.SameRest t
  slots : ∀ i, (s.slot i).Rests (t.slot i)
  legs : ∀ l, (s.leg l).Rests (t.leg l)

theorem State.Halts.refl (s : State) : s.Halts s := ⟨.refl s, fun _ => .of_eq rfl, fun _ => .of_eq rfl⟩

theorem State.Halts.trans {s t u : State} (h : s.Halts t) (k : t.Halts u) : s.Halts u :=
  ⟨h.rest.trans k.rest, fun i => (h.slots i).trans (k.slots i), fun l => (h.legs l).trans (k.legs l)⟩

/-- Halts in a row. -/
theorem State.Halts.foldl {α : Type} {f : State → α → State} (hf : ∀ (u : State) x, u.Halts (f u x))
    (xs : List α) (s : State) : s.Halts (xs.foldl f s) := by
  induction xs generalizing s with
  | nil => exact .refl s
  | cons x xs ih => exact (hf s x).trans (ih _)

variable (s : State)

theorem State.haltSlot_halts {i : SlotId} {st : SlotState} (hi : (s.slot i).state.isActive = true)
    (hst : st.isActive = false) (hp : st ≠ .parked) : s.Halts (s.haltSlot i st) where
  rest := s.haltSlot_sameRest i st
  slots j := by
    rw [State.haltSlot_slot]
    split
    · next h => exact h ▸ .of_leave hst hp hi rfl
    · exact .of_eq rfl
  legs l := .of_eq_or (s.haltSlot_leg_or i l st)

theorem State.recordFault_halts {i : SlotId} (hi : (s.slot i).state.isActive = true) (c : Cause)
    (leg : Option LegId) : s.Halts (s.recordFault i c leg) where
  rest := s.recordFault_sameRest i c leg
  slots j := by
    rw [State.recordFault_slot]
    split
    · next h => exact h ▸ .of_leave (st := .fault) rfl (by decide) hi rfl
    · exact .of_eq rfl
  legs l := by
    rw [State.recordFault_leg]
    split
    · exact .inr rfl
    · exact .inl rfl

theorem State.takeNotice_halts (i : SlotId) (c : Cause) (leg : Option LegId) :
    s.Halts (s.takeNotice i c leg) where
  rest := s.takeNotice_sameRest i c leg
  slots j := by
    obtain h | ⟨hj, c', leg', h⟩ := s.takeNotice_slot_or i j c leg
    · exact .of_eq h
    · exact .of_leave (st := .fault) rfl (by decide) hj (by rw [h]; rfl)
  legs l := .of_eq_or (s.takeNotice_leg_or i l c leg)

variable {s} in
theorem State.stopExpired_iff {i : SlotId} :
    s.stopExpired i = true ↔ (s.slot i).state = .stopping ∧ (s.slot i).stopCount = 0 := by
  simp [State.stopExpired]

theorem State.stopExpiryWork_halts (i : SlotId) : s.Halts (s.stopExpiryWork i) := by
  have hexpired (u : State) {j : SlotId} (h : u.stopExpired j = true) :
      u.Halts (u.haltSlot j .offHeld) :=
    u.haltSlot_halts (by rw [(State.stopExpired_iff.mp h).1]; rfl) rfl (by decide)
  unfold State.stopExpiryWork
  split
  · next h =>
    cases (s.slot i).partner with
    | none => exact hexpired s h
    | some p =>
      dsimp only
      split
      · next hq => exact (hexpired s h).trans (hexpired _ hq)
      · exact hexpired s h
  · exact .refl s

theorem State.disableSlot_halts (i : SlotId) : s.Halts (s.disableSlot i) := by
  unfold State.disableSlot
  cases h : (s.slot i).state with
  | calibrating => exact s.haltSlot_halts (by rw [h]; rfl) rfl (by decide)
  | run => exact s.haltSlot_halts (by rw [h]; rfl) rfl (by decide)
  | stopping => exact s.haltSlot_halts (by rw [h]; rfl) rfl (by decide)
  | parked => exact .refl s
  | claimed => exact .refl s
  | offHeld => exact .refl s
  | fault => exact .refl s

/-- TOFF accepted LOW halts every slot and turns legs off (R13, R65, R145). -/
theorem Slot.torqueOff_rests (x : Slot) : x.Rests x.torqueOff := by
  unfold Slot.torqueOff
  split
  · next h => exact .of_leave (st := .offHeld) rfl (by decide) h rfl
  · exact .of_eq rfl

theorem State.acceptToff_low_legs_rest (l : LegId) : (s.leg l).Rests ((s.acceptToff false).leg l) := by
  rw [State.acceptToff_low_leg]
  split
  · exact .inr rfl
  · exact .inl rfl

/-! ### A completed calibration (R11) -/

variable {s} in
theorem State.calDue_iff {i : SlotId} :
    s.calDue i = true ↔
      (s.slot i).state = .calibrating ∧ ∃ c, (s.slot i).cal = some c ∧ 256 ≤ c.count := by
  simp only [State.calDue, Bool.and_eq_true, beq_iff_eq, Option.any_eq_true, decide_eq_true_eq]
  rfl

variable {s} in
/-- The members of a completion are in CALIBRATING, each named once, and include the partner that is (R11). -/
theorem State.mem_calMembers {i m : SlotId} (hi : (s.slot i).state = .calibrating) :
    m ∈ s.calMembers i ↔
      m = i ∨ (s.slot i).partner = some m ∧ (s.slot m).state = .calibrating := by
  simp only [State.calMembers, List.mem_cons, List.mem_filter, Option.mem_toList, Bool.and_eq_true,
    beq_iff_eq, bne_iff_ne]
  constructor
  · rintro (rfl | ⟨hp, hst, -⟩)
    · exact .inl rfl
    · exact .inr ⟨hp, hst⟩
  · rintro (rfl | ⟨hp, hst⟩)
    · exact .inl rfl
    · by_cases hm : m = i
      · exact .inl hm
      · exact .inr ⟨hp, hst, hm⟩

theorem State.calMembers_nodup (i : SlotId) : (s.calMembers i).Nodup := by
  unfold State.calMembers
  cases hp : (s.slot i).partner with
  | none => simp
  | some p =>
    by_cases h : (s.slot p).state = .calibrating ∧ p ≠ i
    · obtain ⟨hst, hne⟩ := h
      simp [hst, hne, hne.symm]
    · simp only [not_and_or, not_not] at h
      rcases h with h | h <;> simp [h]

@[simp] theorem State.calPass_slot (i j : SlotId) :
    (s.calPass i).slot j = if i = j then { s.slot i with state := .run, cal := none } else s.slot j := by
  simp [State.calPass]

/-- A leg that takes the first of the offsets named for it (R75). -/
def Leg.takeOffset (x : Leg) (offs : List (LegId × Int)) (l : LegId) : Leg :=
  match offs.find? fun p => p.1 = l with
  | some p => { x with offset := p.2 }
  | none => x

theorem State.calPass_leg (i : SlotId) (l : LegId) :
    (s.calPass i).leg l = (s.leg l).takeOffset (s.slot i).newOffsets l := by
  unfold State.calPass
  dsimp only
  rw [State.setSlot_leg, State.leg_mapLegs]
  rfl

/-- An offset is nothing the rules look at. -/
theorem Leg.takeOffset_core (x : Leg) (offs : List (LegId × Int)) (l : LegId) :
    (x.takeOffset offs l).core = x.core := by
  unfold Leg.takeOffset
  split <;> rfl

theorem State.calPass_leg_core (i : SlotId) (l : LegId) : ((s.calPass i).leg l).core = (s.leg l).core := by
  rw [State.calPass_leg, Leg.takeOffset_core]

theorem State.foldl_calPass_slot {ms : List SlotId} (hn : ms.Nodup) (j : SlotId) :
    (ms.foldl State.calPass s).slot j =
      if j ∈ ms then { s.slot j with state := .run, cal := none } else s.slot j := by
  induction ms generalizing s with
  | nil => rfl
  | cons m ms ih =>
    obtain ⟨hm, hms⟩ := List.nodup_cons.mp hn
    rw [List.foldl_cons, ih _ hms, State.calPass_slot]
    by_cases hj : m = j
    · subst hj
      simp [hm]
    · simp [hj, Ne.symm hj]

theorem State.foldl_calPass_leg_core (ms : List SlotId) (l : LegId) :
    ((ms.foldl State.calPass s).leg l).core = (s.leg l).core := by
  induction ms generalizing s with
  | nil => rfl
  | cons m ms ih => exact (ih _).trans (s.calPass_leg_core m l)

/-- The slot record after a failed calibration (R11). -/
def Slot.calFailed (x : Slot) (leg : Option LegId) (cycle : Word) : Slot :=
  x.faulted (if leg = none then .partner else .offset) leg cycle

theorem State.calFail_slot (i j : SlotId) (leg : Option LegId) :
    (s.calFail i leg).slot j = if i = j then (s.slot i).calFailed leg s.cyc.number else s.slot j := by
  cases leg with
  | none => exact s.recordFault_slot i j .partner none
  | some l => exact s.recordFault_slot i j .offset (some l)

theorem State.calFail_halts {i : SlotId} (hi : (s.slot i).state.isActive = true) (leg : Option LegId) :
    s.Halts (s.calFail i leg) := by
  cases leg with
  | none => exact s.recordFault_halts hi _ _
  | some l => exact s.recordFault_halts hi _ _

/-- Members that fail together, each with its own failing leg (R11). -/
def State.calFails (s : State) (legs : SlotId → Option LegId) (ms : List SlotId) : State :=
  ms.foldl (fun t m => t.calFail m (legs m)) s

/-- Every member's failing leg is judged before any member is moved (R11). -/
theorem State.calComplete_eq (i : SlotId) :
    s.calComplete i =
      if s.calDue i then
        if ∀ m ∈ s.calMembers i, s.failingLeg m = none then (s.calMembers i).foldl State.calPass s
        else s.calFails s.failingLeg (s.calMembers i)
      else s := by
  unfold State.calComplete State.calFails
  simp only [List.all_eq_true, Option.isNone_iff_eq_none]

theorem State.calFails_slot (legs : SlotId → Option LegId) {ms : List SlotId} (hn : ms.Nodup) (j : SlotId) :
    (s.calFails legs ms).slot j =
      if j ∈ ms then (s.slot j).calFailed (legs j) s.cyc.number else s.slot j := by
  unfold State.calFails
  induction ms generalizing s with
  | nil => rfl
  | cons m ms ih =>
    obtain ⟨hm, hms⟩ := List.nodup_cons.mp hn
    rw [List.foldl_cons, ih _ hms, State.calFail_slot, (s.calFail_sameRest m _).cyc]
    by_cases hj : m = j
    · subst hj
      simp [hm]
    · simp [hj, Ne.symm hj]

theorem State.calFails_halts (legs : SlotId → Option LegId) {ms : List SlotId} (hn : ms.Nodup)
    (hms : ∀ m ∈ ms, (s.slot m).state.isActive = true) : s.Halts (s.calFails legs ms) := by
  unfold State.calFails
  induction ms generalizing s with
  | nil => exact .refl s
  | cons m ms ih =>
    obtain ⟨hm, hnodup⟩ := List.nodup_cons.mp hn
    obtain ⟨hfirst, hlater⟩ := List.forall_mem_cons.mp hms
    refine (s.calFail_halts hfirst _).trans (ih _ hnodup fun k hk => ?_)
    rw [State.calFail_slot, if_neg fun e : m = k => hm (e ▸ hk)]
    exact hlater k hk

end Sys2Proof.Machine
end

section
/-! SUPPORT. The interlock of the two switches of a leg (R56): every operation keeps it. -/

namespace Sys2Proof.Machine

/-- The interlock looks at a leg's core alone. -/
theorem Leg.Interlocked.of_core {x y : Leg} (h : x.Interlocked) (hc : y.core = x.core) : y.Interlocked :=
  h.congr (congrArg Leg.Core.target hc) (congrArg Leg.Core.gh hc) (congrArg Leg.Core.gl hc)
    (congrArg Leg.Core.pendingOn hc)

theorem Leg.Interlocked.of_rests {x y : Leg} (h : x.Interlocked) (hr : x.Rests y) : y.Interlocked :=
  hr.elim h.of_core x.turnOff_isOff.interlocked.of_core

theorem Leg.reset_interlocked : Leg.reset.Interlocked := ⟨by decide, by decide, by simp [Leg.reset]⟩

namespace State.Interlocked

variable {s t : State}

theorem of_legs (hs : s.Interlocked) (h : ∀ l, (s.leg l).Rests (t.leg l)) : t.Interlocked :=
  fun l => (hs l).of_rests (h l)

theorem of_same (hs : s.Interlocked) (h : ∀ l, t.leg l = s.leg l) : t.Interlocked :=
  hs.of_legs fun l => .of_eq (h l)

theorem setLeg (hs : s.Interlocked) {l : LegId} {x : Leg} (hx : x.Interlocked) :
    (s.setLeg l x).Interlocked := fun k => by
  rw [State.leg_setLeg]
  split
  · exact hx
  · exact hs k

/-- The permissions formed afresh turn legs off at most (R64). -/
theorem reformPermissions (hs : s.Interlocked) : s.reformPermissions.Interlocked :=
  hs.of_legs fun l => .of_eq_or (s.reformPermissions_leg l)

end State.Interlocked

variable {s t : State}

theorem State.calComplete_legs_rest (s : State) (i : SlotId) (l : LegId) :
    (s.leg l).Rests ((s.calComplete i).leg l) := by
  rw [State.calComplete_eq]
  split
  · next hdue =>
    obtain ⟨hi, -⟩ := State.calDue_iff.mp hdue
    split
    · exact .inl (s.foldl_calPass_leg_core _ l)
    · refine (s.calFails_halts s.failingLeg (s.calMembers_nodup i) fun m hm => ?_).legs l
      obtain rfl | ⟨-, hst⟩ := (State.mem_calMembers hi).mp hm
      · rw [hi]; rfl
      · rw [hst]; rfl
  · exact .of_eq rfl

theorem State.allocate_leg (s : State) (l : LegId) : s.allocate.leg l = s.leg l := by
  by_cases hm : s.mode = .operate
  · rw [State.allocate_of_operate hm]
    have hframe := s.putShares_frame s.image.kRise s.shares
    generalize s.putShares s.image.kRise s.shares = t at hframe
    exact (congrArg (fun x : State => x.leg l) hframe :)
  · rw [State.allocate, if_neg hm]

theorem State.enableSlots_leg (s : State) (i : SlotId) (l : LegId) : (s.enableSlots i).leg l = s.leg l := by
  unfold State.enableSlots
  cases (s.slot i).partner <;> rfl

/-- A computed leg takes a new shadow and keeps its gates (R49). -/
theorem State.computeSlots_leg_gates (s : State) (g : GroupId) (xs : List SlotId) (l : LegId) :
    ∃ c, (s.computeSlots g xs).leg l = { s.leg l with shadow := c } := by
  induction xs generalizing s with
  | nil => exact ⟨(s.leg l).shadow, rfl⟩
  | cons i xs ih =>
    obtain ⟨c, hc⟩ := ih (s.computeSlot g i)
    have hstep : ((s.computeSlot g i).computeSlots g xs) = s.computeSlots g (i :: xs) := rfl
    rw [hstep] at hc
    rw [hc]
    cases hp : (s.slot i).phaseOf l with
    | none => rw [State.computeSlot_leg_of_none s g hp]; exact ⟨c, rfl⟩
    | some ph => rw [State.computeSlot_leg_of_phaseOf s g hp]; exact ⟨c, rfl⟩

/-- Every leg after the start of a carrier period (R60, R74). -/
theorem State.periodStart_leg (s : State) (g : GroupId) (l : LegId) :
    (s.periodStart g).leg l =
      if groupOf l = g then
        ((s.leg l).takeShadow (s.image.hp g) (s.deadTime l) s.now).takeSample
      else s.leg l := by
  simp only [State.periodStart, State.mapSlots_leg, State.leg_mapLegs, State.setGroup_leg]

theorem Leg.takeSample_core (x : Leg) : x.takeSample.core = x.core := rfl

/-- A leg of a written item's image takes its new function, and no other leg is touched (R54, R181). -/
theorem State.writeItem_leg_cases (s : State) (i : Item) (v : Word) (l : LegId) :
    (s.writeItem i v).leg l = s.leg l ∨
      (s.writeItem i v).leg l = (s.leg l).takeFunction (s.deadTime l) s.now s.dc.chopper (legFuncOf v) := by
  by_cases hi : i = .leg l
  · subst hi
    rw [State.writeItem_leg, ← Leg.takeFunction_eq]
    exact .inr rfl
  · exact .inl (State.writeItem_leg_of_ne s i v hi)

/-- Every operation keeps the interlock (R56). -/
theorem State.Move.keeps_interlocked (h : s.Move t) (hs : s.Interlocked) : t.Interlocked := by
  cases h with
  | quiet h => exact fun l => (hs l).of_core (h.legs l)
  | unmark => exact hs.of_same fun l => State.mapSlots_leg s _ l
  | notice i c leg => exact hs.of_legs (s.takeNotice_halts i c leg).legs
  | toff high =>
    cases high with
    | true => exact hs.of_same fun l => State.mapSlots_leg _ _ l
    | false => exact hs.of_legs s.acceptToff_low_legs_rest
  | reform => exact hs.reformPermissions
  | exitTest => exact hs.of_same fun l => State.mapSlots_leg s _ l
  | allocate => exact hs.of_same s.allocate_leg
  | countdown => exact hs.of_same fun l => State.mapSlots_leg s _ l
  | stopExpiry i => exact hs.of_legs (s.stopExpiryWork_halts i).legs
  | compute g =>
    intro l
    obtain ⟨c, hc⟩ := s.computeSlots_leg_gates g (s.runningSlots g) l
    rw [State.computeGroup_leg, hc]
    exact (hs l).congr rfl rfl rfl rfl
  | calComplete i => exact hs.of_legs (s.calComplete_legs_rest i)
  | periodStart g =>
    intro l
    rw [State.periodStart_leg]
    split
    · exact (Leg.takeShadow_interlocked (hs l) _ _ _).of_core (Leg.takeSample_core _)
    · exact hs l
  | readVdc =>
    intro l
    rw [State.readVdc_leg, State.vdcLeg]
    split
    · exact Leg.followChopper_interlocked (hs l) _ _ _
    · exact hs l
  | turnOn l hp => exact hs.setLeg (Leg.completeTurnOn_interlocked (hs l) hp)
  | retarget l dt now x => exact hs.setLeg (Leg.setTarget_interlocked (hs l) dt now x)
  | claim | release | clear | reserve => exact hs
  | enable i => exact hs.of_same (s.enableSlots_leg i)
  | disable i => exact hs.of_legs (State.Halts.foldl (fun (u : State) j => u.disableSlot_halts j) _ s).legs
  | writeItem i v =>
    intro l
    obtain h | h := s.writeItem_leg_cases i v l <;> rw [h]
    · exact hs l
    · exact Leg.takeFunction_interlocked (hs l) _ _ _ _
  | enterSetup =>
    refine State.Interlocked.reformPermissions fun l => ?_
    rw [State.setupEntered_leg]
    exact (hs l).congr rfl rfl rfl rfl
  | leaveSetup =>
    rw [State.toOperate_eq]
    refine State.Interlocked.reformPermissions (hs.of_legs fun l => ?_)
    rw [State.compared_leg, State.setupLeft_leg]
    split
    · exact .inr rfl
    · exact .inl rfl
  | force l dt now d => exact hs.setLeg (Leg.drivenTo_interlocked (hs l) dt now d)

theorem State.deviceReset_leg (s : State) (l : LegId) : s.deviceReset.leg l = Leg.reset := by
  simp [State.deviceReset, State.leg, State.reset]

/-- The legs take their functions at load complete and keep the interlock (R54). -/
theorem State.Interlocked.finishLoading (hs : s.Interlocked) : s.finishLoading.Interlocked := by
  rw [State.finishLoading_eq]
  refine State.Interlocked.reformPermissions fun l => ?_
  rw [State.compared_leg, State.judgedStart_leg, State.judged_leg, ← Leg.takeFunction_eq]
  exact Leg.takeFunction_interlocked (hs l) _ _ _ _

theorem State.rstReleased_leg {s : State} (hm : s.mode = .reset) (l : LegId) :
    s.rstReleased.leg l = s.leg l := by
  rw [State.rstReleased, if_pos hm]
  rfl

/-- Settles O56: the interlock is kept by every operation, and what it keeps apart are the two switches. -/
theorem stepKeepsInterlock : Obligations.StepKeepsInterlock := by
  intro s t hs hstep
  have ht : t.Interlocked := step_keeps (fun _ _ => State.Move.keeps_interlocked)
    (fun s l => (s.deviceReset_leg l).symm ▸ Leg.reset_interlocked)
    (fun _ hm hs => hs.of_same (State.rstReleased_leg hm)) (fun _ _ => State.Interlocked.finishLoading) hs hstep
  exact ⟨ht, fun l => (ht l).not_both⟩

end Sys2Proof.Machine
end

section
/-! SUPPORT. Every slot record after each of the operations that a step is made of. -/

namespace Sys2Proof.Machine

variable (s : State) (i j : SlotId)

/-! ### Operations that the rules do not see in a slot -/

/-- The computation of a group stores results that no rule of every step looks at (R51, R130). -/
theorem State.computeGroup_slot_core (g : GroupId) :
    ((s.computeGroup g).slot i).core = (s.slot i).core := by
  by_cases h : (s.slot i).group = some g ∧ (s.slot i).state.isRunning = true
  · obtain ⟨hg, hr⟩ := h
    rw [s.computeGroup_slot_running hg hr]
    rfl
  · rw [s.computeGroup_slot_idle h]
    split <;> rfl

theorem State.periodStart_slot (g : GroupId) :
    ∃ t : State, (s.periodStart g).slot i = t.periodSlot g i (s.slot i) := by
  unfold State.periodStart
  exact ⟨_, (State.slot_mapSlots _ _ i).trans (congrArg _ (State.mapLegs_slot _ _ i))⟩

/-- Checks and calibration samples are nothing the rules look at (R82, R84). -/
theorem State.periodSlot_core (g : GroupId) (x : Slot) : (s.periodSlot g i x).core = x.core := by
  unfold State.periodSlot
  split
  · dsimp only
    split <;> split <;> rfl
  · rfl

theorem State.periodStart_slot_core (g : GroupId) : ((s.periodStart g).slot i).core = (s.slot i).core := by
  obtain ⟨t, ht⟩ := s.periodStart_slot i g
  rw [ht, State.periodSlot_core]

theorem State.writeItem_slot_core (k : Item) (v : Word) : ((s.writeItem k v).slot i).core = (s.slot i).core := by
  cases k with
  | global _ => rfl
  | leg _ => rfl
  | slot n m =>
    have hslot : (s.writeItem (.slot n m) v).slot i = if n = i then (s.slot n).unstage m else s.slot i :=
      State.slot_setSlot _ n i _
    rw [hslot]
    split
    · next h =>
      subst h
      unfold Slot.unstage
      split <;> rfl
    · rfl

/-! ### TOFF, the exit test, the countdown -/

theorem State.acceptToff_high_slot : (s.acceptToff true).slot i = (s.slot i).exited true :=
  State.exitTest_slot _ i

theorem State.countdown_slot : s.countdown.slot i = (s.slot i).countDown := s.slot_mapSlots _ i

/-! ### Stop counters run out (R14, R19) -/

section
variable {s i}

theorem State.stopExpiryWork_alone (hi : s.stopExpired i = true) (hp : (s.slot i).partner = none) :
    s.stopExpiryWork i = s.haltSlot i .offHeld := by
  rw [State.stopExpiryWork, if_pos hi, hp]

theorem State.stopExpiryWork_pair {p : SlotId} (hi : s.stopExpired i = true)
    (hp : (s.slot i).partner = some p) :
    s.stopExpiryWork i =
      if (s.haltSlot i .offHeld).stopExpired p = true then (s.haltSlot i .offHeld).haltSlot p .offHeld
      else s.haltSlot i .offHeld := by
  rw [State.stopExpiryWork, if_pos hi, hp]

/-- A slot that has been halted has no counter left to run out, and any other keeps its own. -/
theorem State.haltSlot_stopExpired {p : SlotId} :
    (s.haltSlot i .offHeld).stopExpired p = (decide (i ≠ p) && s.stopExpired p) := by
  by_cases h : i = p
  · subst h
    simp [State.stopExpired, Slot.leave]
  · simp [State.stopExpired, h]

end

/-- A slot whose counter has run out is held off, and a partner that has run out with it (R14, R19). -/
theorem State.stopExpiryWork_slot :
    (s.stopExpiryWork i).slot j =
      if s.stopExpired i = true ∧ (j = i ∨ (s.slot i).partner = some j ∧ s.stopExpired j = true) then
        (s.slot j).leave .offHeld
      else s.slot j := by
  by_cases hi : s.stopExpired i = true
  · cases hp : (s.slot i).partner with
    | none =>
      rw [State.stopExpiryWork_alone hi hp, State.haltSlot_slot]
      by_cases hij : i = j
      · simp [hij, hij ▸ hi]
      · simp [hij, Ne.symm hij]
    | some p =>
      rw [State.stopExpiryWork_pair hi hp, State.haltSlot_stopExpired]
      by_cases hij : i = j
      · subst hij
        by_cases hpair : i ≠ p ∧ s.stopExpired p = true
        · simp [hi, hpair, hpair.1.symm]
        · simp only [Bool.and_eq_true, decide_eq_true_eq, hpair, if_false]
          simp [hi]
      · by_cases hpj : p = j
        · subst hpj
          by_cases hpe : s.stopExpired p = true <;> simp [hi, hij, hpe, Ne.symm hij]
        · have hkept : ¬(s.stopExpired i = true ∧ (j = i ∨ some p = some j ∧ s.stopExpired j = true)) := by
            rintro ⟨-, h | ⟨h, -⟩⟩
            · exact hij h.symm
            · exact hpj (Option.some.inj h)
          rw [if_neg hkept]
          split <;> simp [hij, hpj]
  · rw [if_neg fun h => hi h.1, State.stopExpiryWork, if_neg hi]

/-! ### DISABLE (R9) -/

/-- A slot record that DISABLE has reached (R9). -/
def Slot.disabled (x : Slot) : Slot :=
  match x.state with
  | .calibrating => x.leave .claimed
  | .run => x.leave .claimed
  | .stopping => x.leave .offHeld
  | .parked | .claimed | .offHeld | .fault => x

theorem State.disableSlot_slot :
    (s.disableSlot i).slot j = if i = j then (s.slot i).disabled else s.slot j := by
  unfold State.disableSlot Slot.disabled
  cases (s.slot i).state <;> simp only [State.haltSlot_slot] <;> split <;> simp_all

theorem Slot.disabled_disabled (x : Slot) : x.disabled.disabled = x.disabled := by
  unfold Slot.disabled
  cases h : x.state <;> simp [h, Slot.leave]

/-- A slot and its partner are disabled together (R9, R19). -/
theorem State.disableMembers_slot :
    ((s.members i).foldl State.disableSlot s).slot j =
      if j = i ∨ (s.slot i).partner = some j then (s.slot j).disabled else s.slot j := by
  unfold State.members
  cases hp : (s.slot i).partner with
  | none =>
    simp only [Option.toList_none, List.foldl_cons, List.foldl_nil, State.disableSlot_slot]
    by_cases hij : i = j
    · simp [hij]
    · simp [hij, Ne.symm hij]
  | some p =>
    simp only [Option.toList_some, List.foldl_cons, List.foldl_nil, State.disableSlot_slot]
    by_cases hij : i = j
    · subst hij
      by_cases hpi : p = i
      · subst hpi
        simp [Slot.disabled_disabled]
      · simp [hpi]
    · by_cases hpj : p = j
      · subst hpj
        simp [hij]
      · simp [hij, hpj, Ne.symm hij]

/-! ### ENABLE (R8) -/

/-- A slot and its partner are enabled together (R8, R19). -/
theorem State.enableSlots_slot :
    (s.enableSlots i).slot j =
      if j = i ∨ (s.slot i).partner = some j then (s.slot j).enabled else s.slot j := by
  unfold State.enableSlots
  cases hp : (s.slot i).partner with
  | none =>
    by_cases hij : i = j
    · simp [hij]
    · simp [hij, Ne.symm hij]
  | some p =>
    by_cases hij : i = j
    · subst hij
      by_cases hpi : p = i
      · subst hpi
        simp [Slot.enabled]
      · simp [hpi]
    · by_cases hpj : p = j
      · subst hpj
        simp [hij]
      · simp [hij, hpj, Ne.symm hij]

/-! ### A completed calibration (R11) -/

theorem State.calComplete_slot :
    (s.calComplete i).slot j =
      if s.calDue i = true ∧ j ∈ s.calMembers i then
        if ∀ m ∈ s.calMembers i, s.failingLeg m = none then { s.slot j with state := .run, cal := none }
        else (s.slot j).calFailed (s.failingLeg j) s.cyc.number
      else s.slot j := by
  rw [State.calComplete_eq]
  by_cases hdue : s.calDue i = true
  · simp only [hdue, if_true, true_and]
    split
    · exact s.foldl_calPass_slot (s.calMembers_nodup i) j
    · exact s.calFails_slot s.failingLeg (s.calMembers_nodup i) j
  · simp [hdue]

/-- A slot is as it was, in RUN out of CALIBRATING, or in FAULT out of an active state, after a completion
(R11). -/
theorem State.calComplete_slot_cases :
    ((s.slot j).state = .calibrating ∧ (s.calComplete i).slot j = { s.slot j with state := .run, cal := none }) ∨
      (s.slot j).Rests ((s.calComplete i).slot j) := by
  rw [State.calComplete_slot]
  split
  · next h =>
    obtain ⟨hdue, hj⟩ := h
    obtain ⟨hi, -⟩ := State.calDue_iff.mp hdue
    have hst : (s.slot j).state = .calibrating := by
      obtain rfl | ⟨-, hst⟩ := (State.mem_calMembers hi).mp hj
      · exact hi
      · exact hst
    split
    · exact .inl ⟨hst, rfl⟩
    · exact .inr (.of_leave (st := .fault) rfl (by decide) (by rw [hst]; rfl) rfl)
  · exact .inr (.of_eq rfl)

/-! ### The allocation (R104 to R111) -/

/-- A slot takes one share of the allocation, or none. -/
theorem State.allocate_slot_cases :
    s.allocate.slot i = s.slot i ∨
      ∃ x, (i, x) ∈ s.shares ∧ s.allocate.slot i = (s.slot i).allocated s.image.kRise x := by
  by_cases hm : s.mode = .operate
  · rw [State.allocate_of_operate hm]
    by_cases hi : i ∈ s.shares.map Prod.fst
    · obtain ⟨⟨k, x⟩, hx, rfl⟩ := List.mem_map.mp hi
      exact .inr ⟨x, hx, s.putShares_slot_of_mem k _ s.shares_nodup hx⟩
    · exact .inl (s.putShares_slot_of_not_mem i _ hi)
  · exact .inl (congrArg (State.slot · i) (if_neg hm))

/-- An allocation gives a slot a scale and a demand, and nothing else. -/
theorem State.allocate_slot_eq :
    ∃ k d, (s.allocate.slot i).core = { (s.slot i).core with kScale := k, demand := d } := by
  obtain h | ⟨x, -, h⟩ := s.allocate_slot_cases i <;> rw [h]
  · exact ⟨_, _, rfl⟩
  · exact ⟨_, _, rfl⟩

/-! ### Load complete and LEAVE_SETUP (R2, R178, R182) -/

/-- A slot record whose partner was derived from an image. -/
def Slot.Derived (x y : Slot) : Prop := ∃ p, y.core = { x.core with partner := p }

theorem State.setupLeft_slot_derived : (s.slot i).Derived (s.setupLeft.compared.slot i) :=
  ⟨s.image.partner i, by rw [State.compared_slot, State.setupLeft_slot]; rfl⟩

theorem State.judgedStart_slot_derived : (s.slot i).Derived (s.judgedStart.compared.slot i) := by
  rw [State.compared_slot, State.judgedStart]
  split
  · rw [State.derived_slot, State.judged_slot]
    exact ⟨_, rfl⟩
  · rw [State.judged_slot]
    exact ⟨_, rfl⟩

end Sys2Proof.Machine
end

section
/-! SUPPORT. TOFF LOW (R13, R65, R145): while the accepted level is LOW no slot is active and no PHASE or FORCED
leg is driven; every operation keeps it. -/

namespace Sys2Proof.Machine

/-! ### One leg -/

/-- What the TOFF level asks of a leg (R54, R65). -/
structure Leg.Dark (x : Leg) (high : Bool) : Prop where
  held : high = false → x.func.heldByToff = true → x.IsOff ∧ x.shadow = none
  unused : x.func = .unused → x.IsOff

theorem Leg.IsOff.of_core {x y : Leg} (h : x.IsOff) (hc : y.core = x.core) : y.IsOff :=
  ⟨(congrArg Leg.Core.drive hc).trans h.drive, (congrArg Leg.Core.target hc).trans h.target,
    (congrArg Leg.Core.gh hc).trans h.high, (congrArg Leg.Core.gl hc).trans h.low,
    (congrArg Leg.Core.pendingOn hc).trans h.waits⟩

namespace Leg.Dark

variable {x y : Leg} {high : Bool}

theorem of_core (h : x.Dark high) (hc : y.core = x.core) : y.Dark high where
  held hh hf := by
    have hfunc : y.func = x.func := congrArg Leg.Core.func hc
    obtain ⟨hoff, hshadow⟩ := h.held hh (hfunc ▸ hf)
    exact ⟨hoff.of_core hc, (congrArg Leg.Core.shadow hc).trans hshadow⟩
  unused hf := (h.unused ((congrArg Leg.Core.func hc).symm.trans hf)).of_core hc

/-- A leg that is off with an empty shadow is dark, whatever its function. -/
theorem of_isOff (h : x.IsOff) (hs : x.shadow = none) : x.Dark high := ⟨fun _ _ => ⟨h, hs⟩, fun _ => h⟩

theorem of_rests (h : x.Dark high) (hr : x.Rests y) : y.Dark high :=
  hr.elim h.of_core (of_isOff (x := x.turnOff) x.turnOff_isOff rfl).of_core

/-- A leg that neither TOFF nor its function keeps off is under no rule here. -/
theorem of_free (hu : x.func ≠ .unused) (hh : high = true ∨ x.func.heldByToff = false) : x.Dark high :=
  ⟨fun hl hf => by rcases hh with h | h <;> simp_all, fun hf => absurd hf hu⟩

/-- A chopper leg is under neither rule (R67). -/
theorem of_chopper (h : x.func = .chopper) : x.Dark high := of_free (by rw [h]; simp) (.inr (by rw [h]; rfl))

/-- TOFF HIGH asks only that an UNUSED leg is off. -/
theorem of_high (h : x.func = .unused → x.IsOff) : x.Dark true := ⟨nofun, h⟩

/-- A leg whose compares are taken away. -/
theorem unloaded (h : x.Dark high) (a : Option Nat) : ({ x with shadow := none, active := a } : Leg).Dark high where
  held hh hf := by
    obtain ⟨hoff, -⟩ := h.held hh hf
    exact ⟨⟨hoff.drive, hoff.target, hoff.high, hoff.low, hoff.waits⟩, rfl⟩
  unused hf := by
    have hoff := h.unused hf
    exact ⟨hoff.drive, hoff.target, hoff.high, hoff.low, hoff.waits⟩

/-- A leg that waits to come on or follows the carrier is neither UNUSED nor held by TOFF. -/
theorem free_of_driven (h : x.Dark high) (hd : x.drive = .switching ∨ x.pendingOn ≠ none) :
    x.func ≠ .unused ∧ (high = true ∨ x.func.heldByToff = false) := by
  have hon : ¬x.IsOff := fun hoff => by
    rcases hd with hd | hd
    · rw [hoff.drive] at hd
      cases hd
    · exact hd hoff.waits
  refine ⟨fun hf => hon (h.unused hf), ?_⟩
  by_contra hboth
  simp only [not_or, Bool.not_eq_true, Bool.not_eq_false] at hboth
  exact hon (h.held hboth.1 hboth.2).1

/-- A new leg-map entry leaves a leg dark (R54). -/
theorem tookEntry (h : x.Dark high) (f : LegFunc) (dt now : Nat) (chopper : Bool) :
    (x.tookEntry f dt now chopper).Dark high := by
  unfold Leg.tookEntry
  split
  · next hcode =>
    have hsame : x.func.heldByToff = f.heldByToff ∧ (f = .unused → x.func = .unused) := by
      cases hx : x.func <;> cases f <;> simp [hx, LegFunc.code, LegFunc.heldByToff] at hcode ⊢
    obtain ⟨hheld, hunused⟩ := hsame
    refine ⟨fun hh hf => ?_, fun hf => ?_⟩
    · obtain ⟨hoff, hshadow⟩ := h.held hh (hheld.trans hf)
      exact ⟨⟨hoff.drive, hoff.target, hoff.high, hoff.low, hoff.waits⟩, hshadow⟩
    · have hoff := h.unused (hunused hf)
      exact ⟨hoff.drive, hoff.target, hoff.high, hoff.low, hoff.waits⟩
  · split
    · next hc =>
      obtain ⟨rfl, -⟩ := hc
      exact of_free (by simp) (.inr rfl)
    · exact of_isOff ⟨rfl, rfl, rfl, rfl, rfl⟩ rfl

/-- A period event leaves a leg dark: with no shadow it stays off (R60). -/
theorem takeShadow (h : x.Dark high) (hp dt now : Nat) : (x.takeShadow hp dt now).Dark high := by
  unfold Leg.takeShadow
  split
  · next n ph ix hf =>
    have hheld : x.func.heldByToff = true := by rw [hf]; rfl
    have hne : x.func ≠ .unused := by rw [hf]; simp
    split
    · next c hc =>
      refine of_free (by simpa using hne) (.inl ?_)
      by_contra hlow
      rw [(h.held (by simpa using hlow) hheld).2] at hc
      cases hc
    · refine ⟨fun hh _ => ?_, fun hu => absurd (by simpa using hu) hne⟩
      obtain ⟨hoff, -⟩ := h.held hh hheld
      have hsame : x.setTarget dt now .none = x := if_pos hoff.target
      rw [hsame]
      exact ⟨⟨rfl, hoff.target, hoff.high, hoff.low, hoff.waits⟩, rfl⟩
  · exact h

end Leg.Dark

theorem Leg.completeTurnOn_func (x : Leg) (sw : Switch) : (x.completeTurnOn sw).func = x.func := by
  cases sw <;> rfl

theorem Leg.drivenTo_func (x : Leg) (dt now : Nat) (d : Drive) : (x.drivenTo dt now d).func = x.func := by
  cases d
  case high => exact x.setTarget_func dt now .high
  case low => exact x.setTarget_func dt now .low
  case off => rfl
  case switching => rfl

theorem Slot.countDown_state (x : Slot) : x.countDown.state = x.state := by
  unfold Slot.countDown
  split <;> rfl

/-! ### The whole part -/

namespace State.TorqueOffHolds

variable {s t : State}

theorem leg (hs : s.TorqueOffHolds) (l : LegId) : (s.leg l).Dark s.safety.toffHigh :=
  ⟨fun hh hf => hs.legs hh l hf, hs.unused l⟩

/-- The rule put together from its slots and its legs. -/
theorem of_parts (hslots : t.safety.toffHigh = false → ∀ i, (t.slot i).state.isActive = false)
    (hlegs : ∀ l, (t.leg l).Dark t.safety.toffHigh) : t.TorqueOffHolds :=
  ⟨hslots, fun hh l => (hlegs l).held hh, fun l => (hlegs l).unused⟩

/-- An operation that leaves the level alone, makes no slot active while it is LOW, and leaves legs dark. -/
theorem step (hs : s.TorqueOffHolds) (htoff : t.safety.toffHigh = s.safety.toffHigh)
    (hslots : ∀ i, (s.slot i).state.isActive = false → (t.slot i).state.isActive = false)
    (hlegs : ∀ l, (s.leg l).Dark s.safety.toffHigh → (t.leg l).Dark s.safety.toffHigh) : t.TorqueOffHolds :=
  of_parts (fun hh i => hslots i (hs.slots (htoff ▸ hh) i)) fun l => htoff.symm ▸ hlegs l (hs.leg l)

/-- An operation that halts slots and turns legs off at most. -/
theorem of_rests (hs : s.TorqueOffHolds) (htoff : t.safety.toffHigh = s.safety.toffHigh)
    (hslots : ∀ i, (s.slot i).state.isActive = false → (t.slot i).state.isActive = false)
    (hlegs : ∀ l, (s.leg l).Rests (t.leg l)) : t.TorqueOffHolds :=
  hs.step htoff hslots fun l h => h.of_rests (hlegs l)

theorem setLeg (hs : s.TorqueOffHolds) {l : LegId} {x : Leg} (hx : x.Dark s.safety.toffHigh) :
    (s.setLeg l x).TorqueOffHolds :=
  hs.step rfl (fun _ h => h) fun k h => by
    rw [State.leg_setLeg]
    split
    · exact hx
    · exact h

theorem setSlot (hs : s.TorqueOffHolds) {i : SlotId} {x : Slot} (hx : x.state.isActive = false) :
    (s.setSlot i x).TorqueOffHolds :=
  hs.of_rests rfl (fun j h => by
    rw [State.slot_setSlot]
    split
    · exact hx
    · exact h) fun _ => .of_eq rfl

end State.TorqueOffHolds

/-- A slot that has left, or looks as it did, is no more active than it was. -/
theorem Slot.Rests.not_active {x y : Slot} (h : x.Rests y) (hx : x.state.isActive = false) :
    y.state.isActive = false := by
  by_contra hy
  have hstate : y.state = x.state := congrArg Slot.Core.state (h.isActive (by simpa using hy))
  rw [hstate, hx] at hy
  exact hy rfl

theorem Slot.isActive_of_core {x y : Slot} (h : y.core = x.core) (hx : x.state.isActive = false) :
    y.state.isActive = false :=
  (congrArg (fun c : Slot.Core => c.state.isActive) h).trans hx

theorem Slot.exited_not_active {x : Slot} {high : Bool} (hx : x.state.isActive = false) :
    (x.exited high).state.isActive = false := by
  unfold Slot.exited
  split
  · rfl
  · exact hx

variable {s t : State}

theorem State.Halts.torqueOff (h : s.Halts t) (hs : s.TorqueOffHolds) : t.TorqueOffHolds :=
  hs.of_rests (congrArg Safety.toffHigh h.rest.safety) (fun i hi => (h.slots i).not_active hi) h.legs

theorem State.compared_toffHigh (s : State) : s.compared.safety.toffHigh = s.safety.toffHigh := rfl

/-- The permissions formed afresh make no slot active (R12). -/
theorem State.TorqueOffHolds.reformPermissions (hs : s.TorqueOffHolds) :
    s.reformPermissions.TorqueOffHolds :=
  hs.of_rests (congrArg Safety.toffHigh s.reformPermissions_sameRest.safety)
    (fun i hi => by rw [State.reformPermissions_slot, Slot.formed_of_not_active hi]; exact hi)
    fun l => .of_eq_or (s.reformPermissions_leg l)

/-- Slots whose partners are derived afresh are as active as they were (R2). -/
theorem Slot.Derived.not_active {x y : Slot} (h : x.Derived y) (hx : x.state.isActive = false) :
    y.state.isActive = false := by
  obtain ⟨p, hp⟩ := h
  exact (congrArg (fun c : Slot.Core => c.state.isActive) hp).trans hx

/-- TOFF accepted HIGH: no slot becomes active by it (R13, R15). -/
theorem State.TorqueOffHolds.acceptToff_high (hs : s.TorqueOffHolds) : (s.acceptToff true).TorqueOffHolds := by
  have hhigh : (s.acceptToff true).safety.toffHigh = true :=
    congrArg Safety.toffHigh
      (State.exitTest_sameRest (s := { s with safety := { s.safety with toffHigh := true } })).safety
  refine .of_parts (fun hlow => ?_) fun l => ?_
  · rw [hhigh] at hlow
    cases hlow
  · rw [hhigh]
    exact .of_high (hs.unused l)

/-- TOFF accepted LOW: every slot is halted and every PHASE and FORCED leg turned off (R145). -/
theorem State.TorqueOffHolds.acceptToff_low (hs : s.TorqueOffHolds) :
    (s.acceptToff false).TorqueOffHolds := by
  refine .of_parts (fun _ i => ?_) fun l => ?_
  · rw [State.acceptToff_low_slot, Slot.torqueOff]
    split
    · rfl
    · next h => simpa using h
  · rw [State.acceptToff_low_leg]
    split
    · exact .of_isOff (Leg.turnOff_isOff _) rfl
    · next h => exact ⟨fun _ hf => absurd (.inl hf) h, hs.unused l⟩

/-- A computation gives no leg a compare while TOFF is LOW: there is no slot to compute (R26). -/
theorem State.TorqueOffHolds.computeGroup (hs : s.TorqueOffHolds) (g : GroupId) :
    (s.computeGroup g).TorqueOffHolds := by
  have hhigh : (s.computeGroup g).safety.toffHigh = s.safety.toffHigh :=
    congrArg Safety.toffHigh (State.computeGroup_sameRest g).safety
  refine hs.step hhigh (fun i hi => Slot.isActive_of_core (s.computeGroup_slot_core i g) hi) fun l hl => ?_
  rw [State.computeGroup_leg]
  cases hh : s.safety.toffHigh with
  | true =>
    obtain ⟨c, hc⟩ := s.computeSlots_leg_gates g (s.runningSlots g) l
    rw [hc]
    refine .of_high fun hf => ?_
    have hoff := hl.unused hf
    exact ⟨hoff.drive, hoff.target, hoff.high, hoff.low, hoff.waits⟩
  | false =>
    have hnone : s.runningSlots g = [] := List.eq_nil_iff_forall_not_mem.mpr fun i hi => by
      have hrun := ((s.mem_runningSlots g i).mp hi).2
      have hidle := hs.slots hh i
      cases hst : (s.slot i).state <;> rw [hst] at hrun hidle <;> cases hrun <;> cases hidle
    rw [hnone, ← hh]
    exact hl

/-- Every operation keeps the rule of TOFF LOW (R13, R65, R145). -/
theorem State.Move.keeps_torqueOff (h : s.Move t) (hs : s.TorqueOffHolds) : t.TorqueOffHolds := by
  cases h with
  | quiet h =>
    exact hs.step h.toff (fun i hi => Slot.isActive_of_core (h.slots i) hi) fun l hl => hl.of_core (h.legs l)
  | unmark =>
    exact hs.of_rests (congrArg Safety.toffHigh (s.mapSlots_sameRest _).safety)
      (fun i hi => by rw [State.slot_mapSlots]; exact hi) fun l => .of_eq (State.mapSlots_leg s _ l)
  | notice i c leg => exact (s.takeNotice_halts i c leg).torqueOff hs
  | toff high =>
    cases high with
    | true => exact hs.acceptToff_high
    | false => exact hs.acceptToff_low
  | reform => exact hs.reformPermissions
  | exitTest =>
    exact hs.of_rests (congrArg Safety.toffHigh State.exitTest_sameRest.safety)
      (fun i hi => by rw [State.exitTest_slot]; exact Slot.exited_not_active hi)
      fun l => .of_eq (State.mapSlots_leg s _ l)
  | allocate =>
    refine hs.of_rests (congrArg Safety.toffHigh State.allocate_sameRest.safety) (fun i hi => ?_)
      fun l => .of_eq (s.allocate_leg l)
    obtain ⟨k, d, h⟩ := s.allocate_slot_eq i
    exact (congrArg (fun c : Slot.Core => c.state.isActive) h).trans hi
  | countdown =>
    exact hs.of_rests (congrArg Safety.toffHigh (s.mapSlots_sameRest _).safety)
      (fun i hi => by rw [State.countdown_slot, Slot.countDown_state]; exact hi)
      fun l => .of_eq (State.mapSlots_leg s _ l)
  | stopExpiry i => exact (s.stopExpiryWork_halts i).torqueOff hs
  | compute g => exact hs.computeGroup g
  | calComplete i =>
    refine hs.of_rests (congrArg Safety.toffHigh (State.calComplete_sameRest i).safety) (fun j hj => ?_)
      (s.calComplete_legs_rest i)
    obtain ⟨hcal, -⟩ | h := s.calComplete_slot_cases i j
    · rw [hcal] at hj
      cases hj
    · exact h.not_active hj
  | periodStart g =>
    refine hs.step (congrArg (fun u : State => u.safety.toffHigh) (s.periodStart_frame g) :)
      (fun i hi => Slot.isActive_of_core (s.periodStart_slot_core i g) hi) fun l hl => ?_
    rw [State.periodStart_leg]
    split
    · exact (hl.takeShadow _ _ _).of_core (Leg.takeSample_core _)
    · exact hl
  | readVdc =>
    refine hs.step (congrArg (fun u : State => u.safety.toffHigh) s.readVdc_frame :)
      (fun i hi => by rw [State.readVdc_slot]; exact hi) fun l hl => ?_
    rw [State.readVdc_leg, State.vdcLeg]
    split
    · next h => exact .of_chopper ((Leg.drivenTo_func _ _ _ _).trans h.1)
    · exact hl
  | turnOn l hp =>
    have hfree := (hs.leg l).free_of_driven (.inr (by rw [hp]; exact Option.some_ne_none _))
    rw [← Leg.completeTurnOn_func] at hfree
    exact hs.setLeg (.of_free hfree.1 hfree.2)
  | retarget l dt now x hd =>
    have hfree := (hs.leg l).free_of_driven hd
    rw [← Leg.setTarget_func] at hfree
    exact hs.setLeg (.of_free hfree.1 hfree.2)
  | claim i d => exact hs.setSlot rfl
  | release i => exact hs.setSlot rfl
  | clear i => exact hs.setSlot rfl
  | reserve i n =>
    exact hs.of_rests rfl (fun j hj => by
      rw [State.slot_setSlot]
      split
      · next h => exact h ▸ hj
      · exact hj) fun _ => .of_eq rfl
  | enable i hst hperm htoff =>
    have hhigh : (s.enableSlots i).safety.toffHigh = true :=
      (congrArg Safety.toffHigh (State.enableSlots_sameRest i).safety).trans htoff
    refine .of_parts (fun hlow => ?_) fun l => ?_
    · rw [hhigh] at hlow
      cases hlow
    · rw [hhigh, State.enableSlots_leg, ← htoff]
      exact hs.leg l
  | disable i => exact (State.Halts.foldl (fun (u : State) j => u.disableSlot_halts j) _ s).torqueOff hs
  | writeItem i v =>
    refine hs.step (congrArg (fun u : State => u.safety.toffHigh) (s.writeItem_frame i v) :)
      (fun j hj => Slot.isActive_of_core (s.writeItem_slot_core j i v) hj) fun l hl => ?_
    obtain h | h := s.writeItem_leg_cases i v l <;> rw [h]
    · exact hl
    · rw [Leg.takeFunction_eq]
      exact hl.tookEntry _ _ _ _
  | enterSetup =>
    refine State.TorqueOffHolds.reformPermissions (hs.step (congrArg Safety.toffHigh s.setupEntered_sameRest.safety)
      (fun i hi => by rw [State.setupEntered_slot]; exact hi) fun l hl => ?_)
    rw [State.setupEntered_leg]
    exact hl.unloaded _
  | leaveSetup =>
    rw [State.toOperate_eq]
    refine State.TorqueOffHolds.reformPermissions (hs.of_rests ?_
      (fun i hi => (s.setupLeft_slot_derived i).not_active hi) fun l => ?_)
    · rw [State.compared_toffHigh]
      exact congrArg Safety.toffHigh s.setupLeft_sameRest.safety
    · rw [State.compared_leg, State.setupLeft_leg]
      split
      · exact .inr rfl
      · exact .inl rfl
  | force l dt now d hf hd =>
    refine hs.setLeg ?_
    obtain rfl | hhigh := hd
    · exact .of_isOff (Leg.turnOff_isOff _) rfl
    · refine .of_free ?_ (.inl hhigh)
      rw [Leg.drivenTo_func, hf]
      simp

/-! ### A step -/

theorem State.deviceReset_slot (s : State) (i : SlotId) : s.deviceReset.slot i = Slot.reset := by
  simp [State.deviceReset, State.slot, State.reset]

theorem State.rstReleased_slot {s : State} (hm : s.mode = .reset) (i : SlotId) :
    s.rstReleased.slot i = s.slot i := by
  rw [State.rstReleased, if_pos hm]
  rfl

theorem State.TorqueOffHolds.deviceReset (s : State) : s.deviceReset.TorqueOffHolds :=
  .of_parts (fun _ i => by rw [State.deviceReset_slot]; rfl) fun l => by
    rw [State.deviceReset_leg]
    exact .of_isOff ⟨rfl, rfl, rfl, rfl, rfl⟩ rfl

theorem State.TorqueOffHolds.rstReleased (hm : s.mode = .reset) (hs : s.TorqueOffHolds) :
    s.rstReleased.TorqueOffHolds := by
  refine hs.of_rests ?_ (fun i hi => ?_) fun l => .of_eq (State.rstReleased_leg hm l)
  · rw [State.rstReleased, if_pos hm]
  · rw [State.rstReleased_slot hm]
    exact hi

theorem State.TorqueOffHolds.finishLoading (hs : s.TorqueOffHolds) : s.finishLoading.TorqueOffHolds := by
  have htoff : s.judgedStart.compared.safety.toffHigh = s.safety.toffHigh := by
    have hjudged : s.judged.safety = s.safety := s.judged_sameRest.safety
    have hstart : s.judgedStart.safety = s.judged.safety := by
      have hrest := s.judgedStart_sameRest
      generalize s.judged = j, s.judgedStart = t at hrest ⊢
      exact hrest.safety
    rw [State.compared_toffHigh, hstart, hjudged]
  rw [State.finishLoading_eq]
  refine State.TorqueOffHolds.reformPermissions (hs.step htoff
    (fun i hi => (s.judgedStart_slot_derived i).not_active hi) fun l hl => ?_)
  rw [State.compared_leg, State.judgedStart_leg, State.judged_leg]
  exact hl.tookEntry _ _ _ _

/-- Settles O57: the rule of TOFF LOW, strengthened by the clause on UNUSED legs, is kept by every operation. -/
theorem stepKeepsTorqueOff : Obligations.StepKeepsTorqueOff := fun _ _ hs hstep =>
  step_keeps (fun _ _ => State.Move.keeps_torqueOff) State.TorqueOffHolds.deviceReset
    (fun _ => State.TorqueOffHolds.rstReleased) (fun _ _ => State.TorqueOffHolds.finishLoading) hs hstep

end Sys2Proof.Machine
end

section
/-! SUPPORT. Who holds a slot and what is reserved (R4, R7, R13, R25, R100, R101, R138): the operations that hand
no slot over leave both alone. -/

namespace Sys2Proof.Machine

/-! ### One slot -/

/-- A slot record with its holder, its reservation and its permission kept, PARKED exactly if it was. -/
structure Slot.Held (x y : Slot) : Prop where
  owner : y.owner = x.owner
  resv : y.resv = x.resv
  perm : y.perm = x.perm
  parked : y.state = .parked ↔ x.state = .parked

namespace Slot.Held

variable {x y : Slot}

theorem of_core (h : y.core = x.core) : x.Held y :=
  ⟨congrArg Slot.Core.owner h, congrArg Slot.Core.resv h, congrArg Slot.Core.perm h, by
    rw [show y.state = x.state from congrArg Slot.Core.state h]⟩

theorem of_rests (h : x.Rests y) : x.Held y := by
  obtain ⟨howner, -, hperm, -, hresv, -, -⟩ := h.kept
  exact ⟨howner, hresv, hperm, h.parked_iff⟩

theorem of_eq (h : y = x) : x.Held y := .of_core (congrArg Slot.core h)

/-- A move between two states that are not PARKED. -/
theorem of_states (howner : y.owner = x.owner) (hresv : y.resv = x.resv) (hperm : y.perm = x.perm)
    (hx : x.state ≠ .parked) (hy : y.state ≠ .parked) : x.Held y :=
  ⟨howner, hresv, hperm, by simp [hx, hy]⟩

theorem exited (x : Slot) (high : Bool) : x.Held (x.exited high) := by
  unfold Slot.exited
  split
  · next h => exact .of_states rfl rfl rfl (by rw [h.1]; decide) SlotState.noConfusion
  · exact .of_eq rfl

theorem countDown (x : Slot) : x.Held x.countDown := by
  unfold Slot.countDown
  split <;> exact ⟨rfl, rfl, rfl, .rfl⟩

end Slot.Held

/-! ### The permissions formed afresh (R12) -/

section
variable (x : Slot) (stop : Nat) (f : Permission × Nat)

theorem Slot.formed_owner : (x.formed stop f).owner = x.owner := by
  obtain ⟨-, -, -, -, howner, -⟩ := x.formed_keeps stop f
  exact howner

theorem Slot.formed_partner : (x.formed stop f).partner = x.partner := by
  obtain ⟨hpartner, -⟩ := x.formed_keeps stop f
  exact hpartner

/-- What an allocation has given a slot is not touched (R12). -/
theorem Slot.formed_budget :
    (x.formed stop f).resv = x.resv ∧ (x.formed stop f).kScale = x.kScale ∧
      (x.formed stop f).demand = x.demand := by
  simp only [Slot.formed]
  split
  · exact ⟨rfl, rfl, rfl⟩
  · split <;> exact ⟨rfl, rfl, rfl⟩

theorem SlotState.moved_parked_iff (st : SlotState) (q : Permission) : st.moved q = .parked ↔ st = .parked := by
  cases st <;> cases q <;> simp [SlotState.moved]

theorem Slot.formed_parked_iff : (x.formed stop f).state = .parked ↔ x.state = .parked := by
  rw [Slot.formed_state]
  split
  · exact .rfl
  · exact SlotState.moved_parked_iff _ _

end

/-! ### The whole part -/

/-- An operation that hands no slot over. -/
structure State.Tenure (s t : State) : Prop where
  owner : ∀ i, (t.slot i).owner = (s.slot i).owner
  resv : ∀ i, (t.slot i).resv = (s.slot i).resv
  parked : ∀ i, (t.slot i).state = .parked ↔ (s.slot i).state = .parked
  outside : s.ParkedOutsideOperate → t.ParkedOutsideOperate
  iIn : s.mode = .operate → t.image.iIn = s.image.iIn

/-- What a state says of who holds a slot. -/
structure State.Held (s : State) : Prop where
  owned : s.Owned
  outside : s.ParkedOutsideOperate

namespace State.Tenure

variable {s t u : State}

theorem of_held (hm : t.mode = s.mode) (hi : s.mode = .operate → t.image.iIn = s.image.iIn)
    (h : ∀ i, (s.slot i).Held (t.slot i)) : s.Tenure t where
  owner i := (h i).owner
  resv i := (h i).resv
  parked i := (h i).parked
  outside hs ht i := ⟨(h i).parked.mpr (hs (hm ▸ ht) i).1, (h i).perm.trans (hs (hm ▸ ht) i).2⟩
  iIn := hi

theorem of_rest (hr : s.SameRest t) (h : ∀ i, (s.slot i).Held (t.slot i)) : s.Tenure t :=
  .of_held hr.mode (fun _ => congrArg Image.iIn hr.image) h

theorem of_quiet (h : s.Quiet t) : s.Tenure t := .of_held h.mode (fun _ => h.iIn) fun i => .of_core (h.slots i)

theorem of_halts (h : s.Halts t) : s.Tenure t := .of_rest h.rest fun i => .of_rests (h.slots i)

/-- The permissions formed afresh hand no slot over, and are OFF outside OPERATE (R138). -/
theorem reformed (howner : ∀ i, (t.slot i).owner = (s.slot i).owner)
    (hresv : ∀ i, (t.slot i).resv = (s.slot i).resv) (hstate : ∀ i, (t.slot i).state = (s.slot i).state)
    (hout : t.mode ≠ .operate → s.ParkedOutsideOperate → ∀ i, (s.slot i).state = .parked)
    (hi : s.mode = .operate → t.image.iIn = s.image.iIn) : s.Tenure t.reformPermissions := by
  have hslot := t.reformPermissions_slot
  have hrest := t.reformPermissions_sameRest
  have hparked : ∀ i, (t.reformPermissions.slot i).state = .parked ↔ (s.slot i).state = .parked := fun i => by
    rw [hslot, ← hstate i]
    exact Slot.formed_parked_iff _ _ _
  refine ⟨fun i => ?_, fun i => ?_, hparked, fun hs hm i => ?_, fun hm => ?_⟩
  · rw [hslot, Slot.formed_owner, howner]
  · rw [hslot, (Slot.formed_budget _ _ _).1, hresv]
  · rw [hrest.mode] at hm
    refine ⟨(hparked i).mpr (hout hm hs i), ?_⟩
    rw [hslot, Slot.formed_perm, State.formPermission_of_not_operate hm]
  · rw [hrest.image]
    exact hi hm

/-- Slots released and claimed change hands; nothing else does. -/
theorem held (h : s.Tenure t) (hs : s.Held) : t.Held :=
  ⟨fun i => by rw [h.owner, h.parked]; exact hs.owned i, h.outside hs.outside⟩

/-- Reservations stay within I_IN while no slot changes hands: outside OPERATE there are none (R25, R100). -/
theorem budget (h : s.Tenure t) (hs : s.Held) (hb : s.BudgetHolds) : t.BudgetHolds where
  parked i hi := (h.resv i).trans (hb.parked i ((h.parked i).mp hi))
  total := by
    simp only [h.resv]
    by_cases hm : s.mode = .operate
    · rw [h.iIn hm]
      exact hb.total
    · have hnone : ∀ i, (s.slot i).resv = 0 := fun i => hb.parked i (hs.outside hm i).1
      simp [hnone]

end State.Tenure

variable {s t : State}

theorem State.writeItem_iIn {i : Item} (v : Word) (hi : i.tuning = true) :
    (s.writeItem i v).image.iIn = s.image.iIn := by
  cases i with
  | slot n m =>
    have hkept : (s.image.setItem (.slot n m) v)[0] = s.image[0] := by
      rw [Image.setItem_getElem]
      exact if_neg (by dsimp only; omega)
    rw [State.writeItem_image]
    exact congrArg BitVec.toNat hkept
  | leg l => cases hi
  | global g => cases hi

/-- What holds of an operation that hands no slot over, of a claim, a release and a reservation, holds of
every operation. -/
theorem State.Move.tenure_cases {P : State → State → Prop} (tenure : ∀ s t : State, s.Tenure t → P s t)
    (claim : ∀ (s : State) i d, s.mode = .operate → (s.slot i).owner = none →
      P s (s.setSlot i { s.slot i with state := .claimed, owner := some d }))
    (release : ∀ (s : State) i, (s.slot i).state ≠ .parked → P s (s.setSlot i (s.slot i).released))
    (reserve : ∀ (s : State) i n, (s.slot i).owner ≠ none → s.otherResv i + n ≤ s.image.iIn →
      P s (s.setSlot i { s.slot i with resv := n }))
    (h : s.Move t) : P s t := by
  cases h with
  | quiet h => exact tenure _ _ (.of_quiet h)
  | unmark =>
    refine tenure _ _ (.of_rest (s.mapSlots_sameRest _) fun i => ?_)
    rw [State.slot_mapSlots]
    exact ⟨rfl, rfl, rfl, .rfl⟩
  | notice i c leg => exact tenure _ _ (.of_halts (s.takeNotice_halts i c leg))
  | toff high =>
    cases high with
    | true =>
      have hrest := State.exitTest_sameRest (s := { s with safety := { s.safety with toffHigh := true } })
      refine tenure _ _ (.of_held hrest.mode (fun _ => congrArg Image.iIn hrest.image) fun i => ?_)
      rw [State.acceptToff_high_slot]
      exact .exited _ _
    | false =>
      have hrest := s.acceptToff_low_sameRest
      refine tenure _ _ (.of_held (hrest.mode.trans (State.mapLegs_mode _ _))
        (fun _ => congrArg Image.iIn (hrest.image.trans (State.mapLegs_image _ _))) fun i => ?_)
      rw [State.acceptToff_low_slot]
      exact .of_rests (s.slot i).torqueOff_rests
  | reform =>
    exact tenure _ _ (.reformed (fun _ => rfl) (fun _ => rfl) (fun _ => rfl)
      (fun hm hs i => (hs hm i).1) fun _ => rfl)
  | exitTest =>
    refine tenure _ _ (.of_rest State.exitTest_sameRest fun i => ?_)
    rw [State.exitTest_slot]
    exact .exited _ _
  | allocate =>
    refine tenure _ _ (.of_rest State.allocate_sameRest fun i => ?_)
    obtain h | ⟨x, -, h⟩ := s.allocate_slot_cases i <;> rw [h]
    · exact .of_eq rfl
    · exact ⟨rfl, rfl, rfl, .rfl⟩
  | countdown =>
    refine tenure _ _ (.of_rest (s.mapSlots_sameRest _) fun i => ?_)
    rw [State.countdown_slot]
    exact .countDown _
  | stopExpiry i => exact tenure _ _ (.of_halts (s.stopExpiryWork_halts i))
  | compute g =>
    exact tenure _ _ (.of_rest (State.computeGroup_sameRest g) fun i => .of_core (s.computeGroup_slot_core i g))
  | calComplete i =>
    refine tenure _ _ (.of_rest (State.calComplete_sameRest i) fun j => ?_)
    obtain ⟨hcal, h⟩ | h := s.calComplete_slot_cases i j
    · rw [h]
      exact .of_states rfl rfl rfl (by rw [hcal]; decide) SlotState.noConfusion
    · exact .of_rests h
  | periodStart g =>
    exact tenure _ _ (.of_held (congrArg State.mode (s.periodStart_frame g) :)
      (fun _ => (congrArg (fun u : State => u.image.iIn) (s.periodStart_frame g) :))
      fun i => .of_core (s.periodStart_slot_core i g))
  | readVdc =>
    exact tenure _ _ (.of_held (congrArg State.mode s.readVdc_frame :)
      (fun _ => (congrArg (fun u : State => u.image.iIn) s.readVdc_frame :)) fun i => .of_eq (s.readVdc_slot i))
  | turnOn l | retarget l | force l =>
    exact tenure _ _ (.of_rest (s.setLeg_sameRest l _) fun i => .of_eq rfl)
  | claim i d hm ho => exact claim s i d hm ho
  | release i hs => exact release s i (by obtain h | h := hs <;> rw [h] <;> decide)
  | enable i hs hp ht hpair =>
    refine tenure _ _ (.of_rest (State.enableSlots_sameRest i) fun j => ?_)
    rw [State.enableSlots_slot]
    split
    · next h =>
      have hj : (s.slot j).state = .claimed := h.elim (fun h => h ▸ hs) (hpair j)
      exact .of_states rfl rfl rfl (by rw [hj]; decide) SlotState.noConfusion
    · exact .of_eq rfl
  | disable i =>
    exact tenure _ _ (.of_halts (State.Halts.foldl (fun (u : State) j => u.disableSlot_halts j) _ s))
  | clear i hs =>
    refine tenure _ _ (.of_rest (s.setSlot_sameRest i _) fun j => ?_)
    rw [State.slot_setSlot]
    split
    · next h =>
      subst h
      exact .of_states rfl rfl rfl (by rw [hs]; decide) SlotState.noConfusion
    · exact .of_eq rfl
  | reserve i n ho hn => exact reserve s i n ho hn
  | writeItem i v hw =>
    refine tenure _ _ (.of_held (congrArg State.mode (s.writeItem_frame i v) :) (fun hm => ?_)
      fun j => .of_core (s.writeItem_slot_core j i v))
    obtain hsetup | htuning := hw
    · rw [hsetup] at hm
      cases hm
    · exact State.writeItem_iIn v htuning
  | enterSetup hp hm =>
    exact tenure _ _ (.reformed (fun i => by rw [State.setupEntered_slot])
      (fun i => by rw [State.setupEntered_slot]) (fun i => by rw [State.setupEntered_slot])
      (fun _ _ => hp) fun _ => congrArg Image.iIn s.setupEntered_sameRest.image)
  | leaveSetup hm hv =>
    rw [State.toOperate_eq]
    refine tenure _ _ (.reformed (fun i => ?_) (fun i => ?_) (fun i => ?_) (fun _ hs i => (hs ?_ i).1)
      fun ho => ?_)
    · rw [State.compared_slot, State.setupLeft_slot]
    · rw [State.compared_slot, State.setupLeft_slot]
    · rw [State.compared_slot, State.setupLeft_slot]
    · rw [hm]; decide
    · rw [hm] at ho
      cases ho

/-! ### A slot changes hands (R6, R7, R101) -/

theorem State.Held.claim {i : SlotId} (hs : s.Held) (d : DriveLink) (hm : s.mode = .operate) :
    (s.setSlot i { s.slot i with state := .claimed, owner := some d }).Held where
  owned j := by
    rw [State.slot_setSlot]
    split
    · simp
    · exact hs.owned j
  outside ht := absurd hm ht

theorem State.Held.release {i : SlotId} (hs : s.Held) (hi : (s.slot i).state ≠ .parked) :
    (s.setSlot i (s.slot i).released).Held where
  owned j := by
    rw [State.slot_setSlot]
    split
    · exact ⟨fun _ => rfl, fun _ => rfl⟩
    · exact hs.owned j
  outside ht := absurd (hs.outside ht i).1 hi

theorem State.Held.reserve {i : SlotId} (hs : s.Held) (n : Nat) :
    (s.setSlot i { s.slot i with resv := n }).Held where
  owned j := by
    rw [State.slot_setSlot]
    split
    · next h => exact h ▸ hs.owned i
    · exact hs.owned j
  outside ht j := by
    rw [State.slot_setSlot]
    split
    · next h => exact h ▸ hs.outside ht i
    · exact hs.outside ht j

theorem State.Move.keeps_held (h : s.Move t) : s.Held → t.Held :=
  h.tenure_cases (P := fun s t => s.Held → t.Held) (fun _ _ h hs => h.held hs)
    (fun _ _ d hm _ hs => hs.claim d hm) (fun _ _ hi hs => hs.release hi) fun _ _ n _ _ hs => hs.reserve n

/-! ### The reservations (R7, R100, R101) -/

/-- A slot with another reservation: those of the others are the rest of the sum. -/
theorem State.sum_resv_setSlot (i : SlotId) (x : Slot) :
    ((List.finRange 8).map fun j => ((s.setSlot i x).slot j).resv).sum = s.otherResv i + x.resv := by
  have hresv : ∀ j, ((s.setSlot i x).slot j).resv =
      (if j = i then 0 else (s.slot j).resv) + if j = i then x.resv else 0 := fun j => by
    rw [State.slot_setSlot]
    by_cases h : i = j
    · simp [h]
    · simp [h, Ne.symm h]
  simp only [hresv, State.otherResv, allSlots, ← Fin.sum_univ_def, Finset.sum_add_distrib,
    Finset.sum_ite_eq', Finset.mem_univ, if_true]

/-- A slot that takes a reservation within the rest of I_IN. -/
theorem State.BudgetHolds.setSlot {i : SlotId} {x : Slot} (hb : s.BudgetHolds)
    (hx : x.state = .parked → x.resv = 0) (hn : s.otherResv i + x.resv ≤ s.image.iIn) :
    (s.setSlot i x).BudgetHolds where
  parked j := by
    rw [State.slot_setSlot]
    split
    · exact hx
    · exact hb.parked j
  total := s.sum_resv_setSlot i x ▸ hn

/-- What the slots have reserved without slot `i` is within I_IN, and so it is with it. -/
theorem State.BudgetHolds.total_eq (hb : s.BudgetHolds) (i : SlotId) :
    s.otherResv i + (s.slot i).resv ≤ s.image.iIn := by
  rw [← State.sum_resv_setSlot, State.setSlot_slot]
  exact hb.total

theorem State.Move.keeps_budget (h : s.Move t) : s.Held → s.BudgetHolds → t.BudgetHolds :=
  h.tenure_cases (P := fun s t => s.Held → s.BudgetHolds → t.BudgetHolds)
    (fun _ _ h hs hb => h.budget hs hb)
    (fun _ i _ _ _ _ hb => hb.setSlot nofun (hb.total_eq i))
    (fun _ i _ _ hb => hb.setSlot (fun _ => rfl) ((Nat.le_add_right _ _).trans (hb.total_eq i)))
    fun _ i _ ho hn hs hb => hb.setSlot (fun hp => absurd ((hs.owned i).mpr hp) ho) hn

/-! ### Start-up (R3, R178) -/

theorem State.deviceReset_held (s : State) : s.deviceReset.Held where
  owned i := by
    rw [State.deviceReset_slot]
    exact ⟨fun _ => rfl, fun _ => rfl⟩
  outside _ i := by
    rw [State.deviceReset_slot]
    exact ⟨rfl, rfl⟩

theorem State.deviceReset_budget (s : State) : s.deviceReset.BudgetHolds where
  parked i _ := by
    rw [State.deviceReset_slot]
    rfl
  total := by
    simp only [State.deviceReset_slot]
    exact (Nat.zero_le _ : 0 ≤ s.deviceReset.image.iIn)

theorem State.rstReleased_tenure (hm : s.mode = .reset) : s.Tenure s.rstReleased := by
  have hslot := State.rstReleased_slot hm
  refine ⟨fun i => by rw [hslot], fun i => by rw [hslot], fun i => by rw [hslot], fun hs _ i => ?_,
    fun ho => ?_⟩
  · rw [hslot]
    exact hs (by rw [hm]; decide) i
  · rw [hm] at ho
    cases ho

theorem State.finishLoading_tenure (hm : s.mode = .loading) : s.Tenure s.finishLoading := by
  have hcore : ∀ i, (s.slot i).Derived (s.judgedStart.compared.slot i) := s.judgedStart_slot_derived
  rw [State.finishLoading_eq]
  refine .reformed (fun i => ?_) (fun i => ?_) (fun i => ?_) (fun _ hs i => (hs (by rw [hm]; decide) i).1)
    fun ho => ?_
  · obtain ⟨p, hp⟩ := hcore i
    exact congrArg Slot.Core.owner hp
  · obtain ⟨p, hp⟩ := hcore i
    exact congrArg Slot.Core.resv hp
  · obtain ⟨p, hp⟩ := hcore i
    exact congrArg Slot.Core.state hp
  · rw [hm] at ho
    cases ho

/-- Every step keeps who holds a slot (R4, R13, R25, R138). -/
theorem State.Held.step (hs : s.Held) (hstep : step s = .next t) : t.Held :=
  step_keeps (fun _ _ => State.Move.keeps_held) State.deviceReset_held
    (fun _ hm => (State.rstReleased_tenure hm).held) (fun _ hm => (State.finishLoading_tenure hm).held) hs hstep

/-- Every step keeps the reservations within I_IN (R7, R100, R101). -/
theorem State.Held.budget_step (hs : s.Held) (hb : s.BudgetHolds) (hstep : Machine.step s = .next t) :
    t.BudgetHolds :=
  (step_keeps (P := fun u => u.Held ∧ u.BudgetHolds)
    (fun _ _ h ⟨hu, hb⟩ => ⟨h.keeps_held hu, h.keeps_budget hu hb⟩)
    (fun u => ⟨u.deviceReset_held, u.deviceReset_budget⟩)
    (fun _ hm ⟨hu, hb⟩ => ⟨(State.rstReleased_tenure hm).held hu, (State.rstReleased_tenure hm).budget hu hb⟩)
    (fun _ hm ⟨hu, hb⟩ =>
      ⟨(State.finishLoading_tenure hm).held hu, (State.finishLoading_tenure hm).budget hu hb⟩)
    ⟨hs, hb⟩ hstep).2

end Sys2Proof.Machine
end

section
/-! SUPPORT. Scales, demands, queues and links within their ranges (R98, R100, R106, R111, R163, R168). -/

namespace Sys2Proof.Machine

/-! ### Scales and demands -/

/-- A slot's scale and demand within their ranges (R100, R106, R111). -/
def Slot.Scaled (x : Slot) : Prop := x.kScale ≤ 32768 ∧ x.demand ≤ 32767

theorem Slot.Scaled.of_core {x y : Slot} (h : x.Scaled) (hc : y.core = x.core) : y.Scaled :=
  (congrArg (fun c : Slot.Core => c.kScale ≤ 32768 ∧ c.demand ≤ 32767) hc).mpr h

theorem Slot.Scaled.of_rests {x y : Slot} (h : x.Scaled) (hr : x.Rests y) : y.Scaled := by
  obtain ⟨-, -, -, -, -, hk, hd⟩ := hr.kept
  exact ⟨hk.le.trans h.1, hd.le.trans h.2⟩

theorem Slot.Scaled.formed {x : Slot} (h : x.Scaled) (stop : Nat) (f : Permission × Nat) :
    (x.formed stop f).Scaled := by
  obtain ⟨-, hk, hd⟩ := x.formed_budget stop f
  exact ⟨hk.le.trans h.1, hd.le.trans h.2⟩

theorem Slot.Scaled.exited {x : Slot} (h : x.Scaled) (high : Bool) : (x.exited high).Scaled := by
  unfold Slot.exited
  split <;> exact h

theorem Slot.Scaled.derived {x y : Slot} (h : x.Scaled) (hd : x.Derived y) : y.Scaled := by
  obtain ⟨p, hp⟩ := hd
  exact (congrArg (fun c : Slot.Core => c.kScale ≤ 32768 ∧ c.demand ≤ 32767) hp).mpr h

/-- A share is no more than the whole (R111). -/
theorem targetScale_le (demand given : Nat) : targetScale demand given ≤ 32768 := by
  unfold targetScale
  split
  · exact le_rfl
  · exact Nat.div_le_of_le_mul (by rw [Nat.mul_comm]; exact Nat.mul_le_mul_right _ (by omega))

theorem nextScale_le {target : Nat} (h : target ≤ 32768) (k kRise : Nat) : nextScale target k kRise ≤ 32768 := by
  unfold nextScale
  split
  · exact h
  · exact (min_le_left _ _).trans h

theorem demandOf_le (j : Int) (ka : Nat) {held : Nat} (h : held ≤ 32767) : demandOf j ka held ≤ 32767 := by
  unfold demandOf
  split
  · exact h
  · exact min_le_left _ _

/-- The regeneration scale is a share of the whole (R98). -/
theorem regenScale_le (vdc vRg vOv : Nat) : regenScale vdc vRg vOv ≤ 32768 := by
  unfold regenScale
  split
  · exact Nat.zero_le _
  · split
    · exact le_rfl
    · exact Nat.div_le_of_le_mul (by rw [Nat.mul_comm]; exact Nat.mul_le_mul_right _ (by omega))

/-- An allocation leaves every slot with a scale and a demand in range (R106, R111). -/
theorem State.allocate_scaled {s : State} (i : SlotId) (h : (s.slot i).Scaled) : (s.allocate.slot i).Scaled := by
  obtain hs | ⟨x, hx, hs⟩ := s.allocate_slot_cases i <;> rw [hs]
  · exact h
  · obtain ⟨hdemand, -⟩ := State.demand_k_of_mem_shares hx
    exact ⟨nextScale_le (targetScale_le _ _) _ _, hdemand.le.trans (demandOf_le _ _ h.2)⟩

variable {s t : State}

/-- Every operation keeps the scale and the demand of every slot in range. -/
theorem State.Move.keeps_scaled (h : s.Move t) (hs : ∀ i, (s.slot i).Scaled) (i : SlotId) :
    (t.slot i).Scaled := by
  cases h with
  | quiet h => exact (hs i).of_core (h.slots i)
  | unmark =>
    rw [State.slot_mapSlots]
    exact hs i
  | notice k c leg => exact (hs i).of_rests ((s.takeNotice_halts k c leg).slots i)
  | toff high =>
    cases high with
    | true =>
      rw [State.acceptToff_high_slot]
      exact (hs i).exited true
    | false =>
      rw [State.acceptToff_low_slot]
      exact (hs i).of_rests (s.slot i).torqueOff_rests
  | reform =>
    rw [State.reformPermissions_slot]
    exact (hs i).formed _ _
  | exitTest =>
    rw [State.exitTest_slot]
    exact (hs i).exited _
  | allocate => exact State.allocate_scaled i (hs i)
  | countdown =>
    rw [State.countdown_slot, Slot.countDown]
    split <;> exact hs i
  | stopExpiry k => exact (hs i).of_rests ((s.stopExpiryWork_halts k).slots i)
  | compute g => exact (hs i).of_core (s.computeGroup_slot_core i g)
  | calComplete k =>
    obtain ⟨-, h⟩ | h := s.calComplete_slot_cases k i
    · rw [h]
      exact hs i
    · exact (hs i).of_rests h
  | periodStart g => exact (hs i).of_core (s.periodStart_slot_core i g)
  | readVdc =>
    rw [State.readVdc_slot]
    exact hs i
  | turnOn | retarget | force => exact hs i
  | claim k d =>
    rw [State.slot_setSlot]
    split
    · exact hs k
    · exact hs i
  | release k =>
    rw [State.slot_setSlot]
    split
    · exact ⟨le_rfl, Nat.zero_le _⟩
    · exact hs i
  | enable k =>
    rw [State.enableSlots_slot]
    split
    · exact ⟨le_rfl, (hs i).2⟩
    · exact hs i
  | disable k => exact (hs i).of_rests ((State.Halts.foldl (fun (u : State) j => u.disableSlot_halts j) _ s).slots i)
  | clear k =>
    rw [State.slot_setSlot]
    split
    · exact hs k
    · exact hs i
  | reserve k n =>
    rw [State.slot_setSlot]
    split
    · exact hs k
    · exact hs i
  | writeItem k v => exact (hs i).of_core (s.writeItem_slot_core i k v)
  | enterSetup =>
    rw [State.reformPermissions_slot, State.setupEntered_slot]
    exact (hs i).formed _ _
  | leaveSetup =>
    rw [State.toOperate_eq, State.reformPermissions_slot]
    exact ((hs i).derived (s.setupLeft_slot_derived i)).formed _ _

/-! ### Queues, links and the regeneration scale -/

/-- The queues, the links and the regeneration scale within their ranges (R98, R163, R168). -/
structure State.Bounded (s : State) : Prop where
  links : s.LinksInRange
  regen : s.dc.kr ≤ 32768

theorem State.Bounded.of_same (hs : s.Bounded) (hports : t.ports = s.ports) (hdrives : t.drives = s.drives)
    (hkr : t.dc.kr ≤ 32768) : t.Bounded where
  links :=
    { queues := fun d => (congrArg (fun v : Vector DriveRec 2 => v[driveIndex d].queue.length) hdrives).le.trans
        (hs.links.queues d)
      bytes := fun k => (congrArg (fun v : Vector Port 3 => v[linkIndex k].bytes.length) hports).le.trans
        (hs.links.bytes k) }
  regen := hkr

theorem State.Bounded.of_rest (hs : s.Bounded) (h : s.SameRest t) : t.Bounded :=
  hs.of_same h.ports h.drives ((congrArg DcLink.kr h.dc).le.trans hs.regen)

/-- Every operation keeps the queues, the links and the regeneration scale within their ranges. -/
theorem State.Move.keeps_bounded (h : s.Move t) (hs : s.Bounded) : t.Bounded := by
  cases h with
  | quiet h =>
    exact
      { links := ⟨fun d => (h.queues d).trans (max_le le_rfl (hs.links.queues d)),
          fun k => (h.bytes k).trans (max_le le_rfl (hs.links.bytes k))⟩
        regen := h.kr.le.trans hs.regen }
  | unmark | countdown => exact hs.of_rest (s.mapSlots_sameRest _)
  | notice i c leg => exact hs.of_rest (s.takeNotice_sameRest i c leg)
  | toff high =>
    cases high with
    | true =>
      have hrest := State.exitTest_sameRest (s := { s with safety := { s.safety with toffHigh := true } })
      exact hs.of_same hrest.ports hrest.drives ((congrArg DcLink.kr hrest.dc).le.trans hs.regen)
    | false =>
      have hrest := s.acceptToff_low_sameRest
      exact hs.of_same (hrest.ports.trans (State.mapLegs_ports _ _)) (hrest.drives.trans (State.mapLegs_drives _ _))
        ((congrArg DcLink.kr (hrest.dc.trans (State.mapLegs_dc _ _))).le.trans hs.regen)
  | reform => exact hs.of_rest s.reformPermissions_sameRest
  | exitTest => exact hs.of_rest State.exitTest_sameRest
  | allocate => exact hs.of_rest State.allocate_sameRest
  | stopExpiry i => exact hs.of_rest (State.stopExpiryWork_sameRest i)
  | compute g => exact hs.of_rest (State.computeGroup_sameRest g)
  | calComplete i => exact hs.of_rest (State.calComplete_sameRest i)
  | periodStart g =>
    have hframe := s.periodStart_frame g
    exact hs.of_same (congrArg State.ports hframe :) (congrArg State.drives hframe :)
      ((congrArg (fun u : State => u.dc.kr) hframe :).le.trans hs.regen)
  | readVdc =>
    have hframe := s.readVdc_frame
    refine hs.of_same (congrArg State.ports hframe :) (congrArg State.drives hframe :) ?_
    rw [State.readVdc_eq]
    exact regenScale_le _ _ _
  | turnOn l | retarget l | force l => exact hs.of_rest (s.setLeg_sameRest l _)
  | claim i | release i | clear i | reserve i => exact hs.of_rest (s.setSlot_sameRest i _)
  | enable i => exact hs.of_rest (State.enableSlots_sameRest i)
  | disable i => exact hs.of_rest (State.SameRest.foldl (fun (u : State) j => u.disableSlot_sameRest j) _ s)
  | writeItem i v =>
    have hframe := s.writeItem_frame i v
    exact hs.of_same (congrArg State.ports hframe :) (congrArg State.drives hframe :)
      ((congrArg (fun u : State => u.dc.kr) hframe :).le.trans hs.regen)
  | enterSetup =>
    have hrest := s.setupEntered_sameRest
    have hentered : s.setupEntered.Bounded :=
      hs.of_same hrest.ports hrest.drives ((congrArg DcLink.kr hrest.dc).le.trans hs.regen)
    exact hentered.of_rest (State.reformPermissions_sameRest _)
  | leaveSetup =>
    have hrest := s.toOperate_sameRest
    exact hs.of_same hrest.ports hrest.drives ((congrArg DcLink.kr hrest.dc).le.trans hs.regen)

/-! ### Start-up -/

theorem State.deviceReset_scaled (s : State) (i : SlotId) : (s.deviceReset.slot i).Scaled := by
  rw [State.deviceReset_slot]
  exact ⟨le_rfl, Nat.zero_le _⟩

theorem State.deviceReset_bounded (s : State) : s.deviceReset.Bounded where
  links :=
    { queues := fun d => by simp [State.deviceReset, State.drive, State.reset, DriveRec.reset]
      bytes := fun k => by simp [State.deviceReset, State.port, Port.reset] }
  regen := le_rfl

theorem State.rstReleased_bounded (hm : s.mode = .reset) (hs : s.Bounded) : s.rstReleased.Bounded := by
  rw [State.rstReleased, if_pos hm]
  exact hs.of_same rfl rfl hs.regen

theorem State.finishLoading_scaled (hs : ∀ i, (s.slot i).Scaled) (i : SlotId) :
    (s.finishLoading.slot i).Scaled := by
  rw [State.finishLoading_eq, State.reformPermissions_slot]
  exact ((hs i).derived (s.judgedStart_slot_derived i)).formed _ _

theorem State.finishLoading_bounded (hs : s.Bounded) : s.finishLoading.Bounded := by
  have hrest := s.finishLoading_sameRest
  generalize s.finishLoading = t at hrest ⊢
  exact hs.of_same hrest.ports hrest.drives ((congrArg DcLink.kr hrest.dc).le.trans hs.regen)

/-- Settles O59: scales and links are kept by every operation; reservations are kept with the rule of who holds
a slot. -/
theorem stepKeepsRanges : Obligations.StepKeepsRanges := by
  refine fun s t hstep => ⟨fun hscales hlinks => ?_, fun howned hout hb =>
    State.Held.budget_step ⟨howned, hout⟩ hb hstep⟩
  obtain ⟨hslots, hbounded⟩ := step_keeps (P := fun u => (∀ i, (u.slot i).Scaled) ∧ u.Bounded)
    (fun _ _ h ⟨hu, hb⟩ => ⟨h.keeps_scaled hu, h.keeps_bounded hb⟩)
    (fun u => ⟨u.deviceReset_scaled, u.deviceReset_bounded⟩)
    (fun _ hm ⟨hu, hb⟩ => ⟨fun i => by rw [State.rstReleased_slot hm]; exact hu i, State.rstReleased_bounded hm hb⟩)
    (fun _ _ ⟨hu, hb⟩ => ⟨State.finishLoading_scaled hu, State.finishLoading_bounded hb⟩)
    ⟨hscales.slots, hlinks, hscales.regen⟩ hstep
  exact ⟨⟨hslots, hbounded.regen⟩, hbounded.links⟩

end Sys2Proof.Machine
end

section
/-! SUPPORT. Stop counters at rest (R14), the permissions of active slots (R12) and the members of a pair
together (R18, R19, R138). -/

namespace Sys2Proof.Machine

/-! ### One slot -/

/-- The stop counter stands at 0 outside STOPPING (R14). -/
def Slot.Counted (x : Slot) : Prop := x.state ≠ .stopping → x.stopCount = 0

/-- No CALIBRATING or RUN under STOP or OFF, no STOPPING under OFF (R12). -/
def Slot.Permitted (x : Slot) : Prop :=
  (x.state = .calibrating ∨ x.state = .run → x.perm ≠ .stop ∧ x.perm ≠ .off) ∧
    (x.state = .stopping → x.perm ≠ .off)

/-- An operation on a slot record that keeps its partner and its permission, and both rules. -/
structure Slot.Obeys (x y : Slot) : Prop where
  partner : y.partner = x.partner
  perm : y.perm = x.perm
  lPerm : y.lPerm = x.lPerm
  counted : x.Counted → y.Counted
  permitted : x.Permitted → y.Permitted

theorem Slot.Permitted.of_not_active {x : Slot} (h : x.state.isActive = false) : x.Permitted := by
  refine ⟨?_, ?_⟩
  · rintro (hx | hx) <;> rw [hx] at h <;> cases h
  · intro hx
    rw [hx] at h
    cases h

namespace Slot.Obeys

variable {x y : Slot}

theorem of_core (h : y.core = x.core) : x.Obeys y where
  partner := congrArg Slot.Core.partner h
  perm := congrArg Slot.Core.perm h
  lPerm := congrArg Slot.Core.lPerm h
  counted := (congrArg (fun c : Slot.Core => c.state ≠ .stopping → c.stopCount = 0) h).mpr
  permitted := (congrArg (fun c : Slot.Core =>
    (c.state = .calibrating ∨ c.state = .run → c.perm ≠ .stop ∧ c.perm ≠ .off) ∧
      (c.state = .stopping → c.perm ≠ .off)) h).mpr

theorem of_eq (h : y = x) : x.Obeys y := of_core (congrArg Slot.core h)

/-- A slot record out of the active states with its counter at rest. -/
theorem of_rest (hpartner : y.partner = x.partner) (hperm : y.perm = x.perm) (hlperm : y.lPerm = x.lPerm)
    (hstate : y.state.isActive = false) (hcount : x.Counted → y.stopCount = 0) : x.Obeys y where
  partner := hpartner
  perm := hperm
  lPerm := hlperm
  counted hx _ := hcount hx
  permitted _ := .of_not_active hstate

theorem of_rests (h : x.Rests y) : x.Obeys y := by
  obtain ⟨-, hpartner, hperm, hlperm, -⟩ := h.kept
  obtain h | ⟨st, hst, -, -, h⟩ := h
  · exact .of_core h
  · refine .of_rest hpartner hperm hlperm ?_ fun _ => congrArg Slot.Core.stopCount h
    exact (congrArg (fun c : Slot.Core => c.state.isActive) h).trans hst

theorem exited (x : Slot) (high : Bool) : x.Obeys (x.exited high) := by
  unfold Slot.exited
  split
  · next h => exact .of_rest rfl rfl rfl rfl fun hx => hx (by rw [h.1]; decide)
  · exact .of_eq rfl

theorem countDown (x : Slot) : x.Obeys x.countDown := by
  unfold Slot.countDown
  split
  · next h => exact ⟨rfl, rfl, rfl, fun _ hy => absurd h.1 hy, fun hx => hx⟩
  · exact .of_eq rfl

/-- A slot out of CALIBRATING into RUN (R11). -/
theorem passed (h : x.state = .calibrating) : x.Obeys { x with state := .run, cal := none } where
  partner := rfl
  perm := rfl
  lPerm := rfl
  counted hx _ := hx (by rw [h]; decide)
  permitted hx := ⟨fun _ => hx.1 (.inl h), SlotState.noConfusion⟩

end Slot.Obeys

/-! ### Every operation -/

variable {s t : State}

/-- What holds of an operation that keeps partners and permissions, of an ENABLE, and of the permissions formed
afresh, holds of every operation. -/
theorem State.Move.obeys_cases {P : State → State → Prop}
    (obeys : ∀ s t : State, (s.Owned → ∀ i, (s.slot i).Obeys (t.slot i)) → P s t)
    (enable : ∀ (s : State) i, (s.slot i).state = .claimed → (s.slot i).perm.permits = true →
      (∀ p, (s.slot i).partner = some p → (s.slot p).state = .claimed) → P s (s.enableSlots i))
    (reform : ∀ s u : State, (∀ i, u.slot i = s.slot i) → P s u.reformPermissions)
    (leaveSetup : ∀ s : State, s.mode = .setup → s.image.validate = none → P s s.toOperate)
    (h : s.Move t) : P s t := by
  cases h with
  | quiet h => exact obeys _ _ fun _ i => .of_core (h.slots i)
  | unmark =>
    refine obeys _ _ fun _ i => ?_
    rw [State.slot_mapSlots]
    exact ⟨rfl, rfl, rfl, id, id⟩
  | notice i c leg => exact obeys _ _ fun _ j => .of_rests ((s.takeNotice_halts i c leg).slots j)
  | toff high =>
    cases high with
    | true =>
      refine obeys _ _ fun _ i => ?_
      rw [State.acceptToff_high_slot]
      exact .exited _ _
    | false =>
      refine obeys _ _ fun _ i => ?_
      rw [State.acceptToff_low_slot]
      exact .of_rests (s.slot i).torqueOff_rests
  | reform => exact reform s s fun _ => rfl
  | exitTest =>
    refine obeys _ _ fun _ i => ?_
    rw [State.exitTest_slot]
    exact .exited _ _
  | allocate =>
    refine obeys _ _ fun _ i => ?_
    obtain h | ⟨x, -, h⟩ := s.allocate_slot_cases i <;> rw [h]
    · exact .of_eq rfl
    · exact ⟨rfl, rfl, rfl, id, id⟩
  | countdown =>
    refine obeys _ _ fun _ i => ?_
    rw [State.countdown_slot]
    exact .countDown _
  | stopExpiry i => exact obeys _ _ fun _ j => .of_rests ((s.stopExpiryWork_halts i).slots j)
  | compute g => exact obeys _ _ fun _ i => .of_core (s.computeGroup_slot_core i g)
  | calComplete i =>
    refine obeys _ _ fun _ j => ?_
    obtain ⟨hcal, h⟩ | h := s.calComplete_slot_cases i j
    · rw [h]
      exact .passed hcal
    · exact .of_rests h
  | periodStart g => exact obeys _ _ fun _ i => .of_core (s.periodStart_slot_core i g)
  | readVdc => exact obeys _ _ fun _ i => .of_eq (s.readVdc_slot i)
  | turnOn | retarget | force => exact obeys _ _ fun _ i => .of_eq rfl
  | claim i d hm ho =>
    refine obeys _ _ fun howned j => ?_
    rw [State.slot_setSlot]
    split
    · next h =>
      subst h
      refine .of_rest rfl rfl rfl rfl fun hx => hx ?_
      rw [(howned i).mp ho]
      decide
    · exact .of_eq rfl
  | release i hs =>
    refine obeys _ _ fun _ j => ?_
    rw [State.slot_setSlot]
    split
    · next h =>
      subst h
      exact .of_rest rfl rfl rfl rfl fun hx => hx (by obtain h | h := hs <;> rw [h] <;> decide)
    · exact .of_eq rfl
  | enable i hs hp ht hpair => exact enable s i hs hp hpair
  | disable i =>
    exact obeys _ _ fun _ j =>
      .of_rests ((State.Halts.foldl (fun (u : State) k => u.disableSlot_halts k) _ s).slots j)
  | clear i hs =>
    refine obeys _ _ fun _ j => ?_
    rw [State.slot_setSlot]
    split
    · next h =>
      subst h
      exact .of_rest rfl rfl rfl rfl fun hx => hx (by rw [hs]; decide)
    · exact .of_eq rfl
  | reserve i n =>
    refine obeys _ _ fun _ j => ?_
    rw [State.slot_setSlot]
    split
    · next h =>
      subst h
      exact ⟨rfl, rfl, rfl, id, id⟩
    · exact .of_eq rfl
  | writeItem i v => exact obeys _ _ fun _ j => .of_core (s.writeItem_slot_core j i v)
  | enterSetup => exact reform s _ s.setupEntered_slot
  | leaveSetup hm hv => exact leaveSetup s hm hv

/-! ### Stop counters (R14) -/

theorem Slot.Counted.derived {x y : Slot} (h : x.Counted) (hd : x.Derived y) : y.Counted := by
  obtain ⟨p, hp⟩ := hd
  exact (congrArg (fun c : Slot.Core => c.state ≠ .stopping → c.stopCount = 0) hp).mpr h

theorem State.StopCountsRest.reformed {u : State} (h : ∀ i, (u.slot i).Counted) :
    u.reformPermissions.StopCountsRest := fun i => by
  rw [State.reformPermissions_slot]
  exact Slot.formed_stopCount _ _ _ (h i)

/-- Every operation leaves the stop counters outside STOPPING at 0. -/
theorem State.Move.keeps_stopCounts (h : s.Move t) : s.Owned → s.StopCountsRest → t.StopCountsRest := by
  refine h.obeys_cases (P := fun s t => s.Owned → s.StopCountsRest → t.StopCountsRest) ?_ ?_ ?_ ?_
  · exact fun s t h howned hs i => (h howned i).counted (hs i)
  · intro s i hi _ hpair _ hs j
    rw [State.enableSlots_slot]
    split
    · next h =>
      have hj : (s.slot j).state = .claimed := h.elim (fun h => h ▸ hi) (hpair j)
      exact fun _ => hs j (by rw [hj]; decide)
    · exact hs j
  · exact fun s u hu _ hs => .reformed fun i => hu i ▸ hs i
  · intro s _ _ _ hs
    rw [State.toOperate_eq]
    exact .reformed fun i => Slot.Counted.derived (hs i) (s.setupLeft_slot_derived i)

/-! ### Permissions (R12, R18, R19, R138) -/

/-- Partners name each other (R18). -/
def State.Mutual (s : State) : Prop := ∀ i p, (s.slot i).partner = some p → (s.slot p).partner = some i

theorem State.PermissionsHold.permitted (hs : s.PermissionsHold) (i : SlotId) : (s.slot i).Permitted :=
  ⟨hs.running i, hs.stopping i⟩

theorem Slot.Permitted.derived {x y : Slot} (h : x.Permitted) (hd : x.Derived y) : y.Permitted := by
  obtain ⟨p, hp⟩ := hd
  exact (congrArg (fun c : Slot.Core =>
    (c.state = .calibrating ∨ c.state = .run → c.perm ≠ .stop ∧ c.perm ≠ .off) ∧
      (c.state = .stopping → c.perm ≠ .off)) hp).mpr h

/-- The permissions formed afresh hold of slots whose partners name each other (R12, R138). -/
theorem State.PermissionsHold.reformed {u : State} (hmutual : u.Mutual) (h : ∀ i, (u.slot i).Permitted) :
    u.reformPermissions.PermissionsHold := by
  have hslot := u.reformPermissions_slot
  have hpermitted : ∀ i, (u.reformPermissions.slot i).Permitted := fun i => by
    rw [hslot]
    exact Slot.formed_permits _ _ _ (h i).1 (h i).2
  refine ⟨fun i p hp => ?_, fun i p hp => ?_, fun i => (hpermitted i).1, fun i => (hpermitted i).2⟩
  · rw [hslot, Slot.formed_partner] at hp ⊢
    exact hmutual i p hp
  · rw [hslot, Slot.formed_partner] at hp
    have hshared := u.formPermission_pair i hp (hmutual i p hp)
    rw [hslot, hslot, Slot.formed_perm, Slot.formed_perm, Slot.formed_lPerm, Slot.formed_lPerm, hshared]
    exact ⟨rfl, rfl⟩

/-- A slot that may run stands under ALLOW or LIMIT, and so does its partner. -/
theorem Permission.ne_of_permits {q : Permission} (h : q.permits = true) : q ≠ .stop ∧ q ≠ .off := by
  cases q <;> simp [Permission.permits] at h ⊢

/-- In an image without a failing check partners name each other (R182). -/
theorem Image.partner_mutual {img : Image} (h : img.validate = none) {i p : SlotId}
    (hp : img.partner i = some p) : img.partner p = some i := by
  by_contra hne
  have hbad : img.Fails 4 i.val := .inr (.inr (.inr (.inl ⟨rfl, i, p, rfl, hp, .inr (.inl hne)⟩)))
  exact img.validate_eq_none_iff.mp h 4 i.val hbad

theorem State.setupLeft_mutual (hv : s.image.validate = none) : s.setupLeft.compared.Mutual := by
  intro i p hp
  rw [State.compared_slot, State.setupLeft_slot] at hp ⊢
  exact Image.partner_mutual hv hp

/-- Every operation keeps the rules of the permissions. -/
theorem State.Move.keeps_permissions (h : s.Move t) : s.Owned → s.PermissionsHold → t.PermissionsHold := by
  refine h.obeys_cases (P := fun s t => s.Owned → s.PermissionsHold → t.PermissionsHold) ?_ ?_ ?_ ?_
  · intro s t h howned hs
    have hkept := h howned
    refine ⟨fun i p hp => ?_, fun i p hp => ?_, fun i => ((hkept i).permitted (hs.permitted i)).1,
      fun i => ((hkept i).permitted (hs.permitted i)).2⟩
    · rw [(hkept _).partner] at hp ⊢
      exact hs.pairs i p hp
    · rw [(hkept _).partner] at hp
      rw [(hkept _).perm, (hkept _).perm, (hkept _).lPerm, (hkept _).lPerm]
      exact hs.shared i p hp
  · intro s i hi hperm _ _ hs
    have hslot := s.enableSlots_slot i
    have hpartner : ∀ j, ((s.enableSlots i).slot j).partner = (s.slot j).partner := fun j => by
      rw [hslot]; split <;> rfl
    have hpermKept : ∀ j, ((s.enableSlots i).slot j).perm = (s.slot j).perm ∧
        ((s.enableSlots i).slot j).lPerm = (s.slot j).lPerm := fun j => by
      rw [hslot]; split <;> exact ⟨rfl, rfl⟩
    have hpermitted : ∀ j, ((s.enableSlots i).slot j).Permitted := fun j => by
      rw [hslot]
      split
      · next h =>
        have hj : (s.slot j).perm = (s.slot i).perm := h.elim (fun h => h ▸ rfl) fun hp => (hs.shared i j hp).1
        exact ⟨fun _ => Permission.ne_of_permits (hj ▸ hperm), SlotState.noConfusion⟩
      · exact hs.permitted j
    refine ⟨fun j p hp => ?_, fun j p hp => ?_, fun j => (hpermitted j).1, fun j => (hpermitted j).2⟩
    · rw [hpartner] at hp ⊢
      exact hs.pairs j p hp
    · rw [hpartner] at hp
      rw [(hpermKept _).1, (hpermKept _).1, (hpermKept _).2, (hpermKept _).2]
      exact hs.shared j p hp
  · intro s u hu _ hs
    refine .reformed (fun i p hp => ?_) fun i => hu i ▸ hs.permitted i
    rw [hu] at hp ⊢
    exact hs.pairs i p hp
  · intro s _ hv _ hs
    rw [State.toOperate_eq]
    exact .reformed (State.setupLeft_mutual hv) fun i => (hs.permitted i).derived (s.setupLeft_slot_derived i)

end Sys2Proof.Machine
end

section
/-! SUPPORT. The members of a tandem pair move together (R14, R19). -/

namespace Sys2Proof.Machine

/-! ### Two slot records -/

/-- A slot record beside that of its partner: in one state while it is active, with one stop counter (R14, R19). -/
def Slot.Together (x y : Slot) : Prop :=
  (x.state.isActive = true → y.state = x.state) ∧
    (x.state = .stopping → y.stopCount = x.stopCount ∧ y.stopLoaded = x.stopLoaded)

/-- A slot record that is as it was in all that its partner goes by. -/
structure Slot.Alike (x y : Slot) : Prop where
  state : y.state = x.state
  stopCount : y.stopCount = x.stopCount
  stopLoaded : y.stopLoaded = x.stopLoaded

theorem Slot.Alike.of_core {x y : Slot} (h : y.core = x.core) : x.Alike y :=
  ⟨congrArg Slot.Core.state h, congrArg Slot.Core.stopCount h, congrArg Slot.Core.stopLoaded h⟩

theorem Slot.Alike.refl (x : Slot) : x.Alike x := ⟨rfl, rfl, rfl⟩

namespace Slot.Together

variable {x y x' y' : Slot}

theorem of_alike (h : x.Together y) (hx : x.Alike x') (hy : y.Alike y') : x'.Together y' := by
  obtain ⟨hstate, hcount, hloaded⟩ := hx
  obtain ⟨hstate', hcount', hloaded'⟩ := hy
  unfold Slot.Together
  rw [hstate, hcount, hloaded, hstate', hcount', hloaded']
  exact h

/-- Out of the active states a slot goes its own way. -/
theorem of_not_active (h : x.state.isActive = false) : x.Together y := by
  refine ⟨fun hx => ?_, fun hx => ?_⟩
  · rw [h] at hx
    cases hx
  · rw [hx] at h
    cases h

/-- Both in one state other than STOPPING. -/
theorem of_state (h : y.state = x.state) (hx : x.state ≠ .stopping) : x.Together y :=
  ⟨fun _ => h, fun he => absurd he hx⟩

/-- The permission of a pair formed afresh takes both members the same way (R12, R19). -/
theorem formed (h : x.Together y) (hperm : y.perm = x.perm) (stop : Nat) (f : Permission × Nat) :
    (x.formed stop f).Together (y.formed stop f) := by
  by_cases hx : x.state.isActive = true
  · obtain ⟨hstate, hcount⟩ := h
    have hy := hstate hx
    obtain ⟨q, n⟩ := f
    unfold Slot.Together Slot.formed
    by_cases hq : x.perm = q
    · simp only [hperm, hq, if_true, hy, implies_true, true_and]
      exact hcount
    · simp only [hperm, hq, if_false, hy]
      cases hst : x.state <;> cases q <;> simp_all [Slot.leave]
  · rw [Bool.not_eq_true] at hx
    refine of_not_active ?_
    rw [Slot.formed_of_not_active hx]
    exact hx

/-- The counters of a pair step together (R142). -/
theorem countDown (h : x.Together y) : x.countDown.Together y.countDown := by
  obtain ⟨hstate, hcount⟩ := h
  refine ⟨fun hx => ?_, fun hx => ?_⟩
  · rw [Slot.countDown_state] at hx
    rw [Slot.countDown_state, Slot.countDown_state, hstate hx]
  · rw [Slot.countDown_state] at hx
    have hy : y.state = .stopping := (hstate (by rw [hx]; rfl)).trans hx
    obtain ⟨hc, hl⟩ := hcount hx
    unfold Slot.countDown
    cases hm : x.stopLoaded <;> simp [hx, hy, hc, hl, hm]

end Slot.Together

/-! ### Every pair -/

theorem Slot.exited_partner (x : Slot) (high : Bool) : (x.exited high).partner = x.partner := by
  unfold Slot.exited
  split <;> rfl

variable {s t : State}

theorem State.PairsTogether.together (hs : s.PairsTogether) {i p : SlotId} (hp : (s.slot i).partner = some p) :
    (s.slot i).Together (s.slot p) :=
  ⟨hs.states i p hp, hs.counters i p hp⟩

/-- A pair matters while it is active. -/
theorem State.PairsTogether.of_active
    (h : ∀ i p, (t.slot i).partner = some p → (t.slot i).state.isActive = true →
      (t.slot i).Together (t.slot p)) : t.PairsTogether where
  states i p hp hi := (h i p hp hi).1 hi
  counters i p hp hi := (h i p hp (by rw [hi]; rfl)).2 hi

theorem State.PairsTogether.of_none_active (h : ∀ i, (t.slot i).state.isActive = false) : t.PairsTogether :=
  .of_active fun i _ _ _ => .of_not_active (h i)

namespace State.PairsTogether

variable (hs : s.PairsTogether) (hpartner : ∀ i, (t.slot i).partner = (s.slot i).partner)
include hs hpartner

/-- The same done to each slot that keeps pairs together. -/
theorem of_each (h : ∀ i p, (s.slot i).partner = some p → (s.slot i).Together (s.slot p) →
    (t.slot i).Together (t.slot p)) : t.PairsTogether :=
  .of_active fun i p hp _ => by
    rw [hpartner] at hp
    exact h i p hp (hs.together hp)

/-- Active slots are left alone, and none becomes active. -/
theorem of_idle (h : ∀ i, (s.slot i).Alike (t.slot i) ∨
    (s.slot i).state.isActive = false ∧ (t.slot i).state.isActive = false) : t.PairsTogether :=
  .of_active fun i p hp hi => by
    rw [hpartner] at hp
    have htog := hs.together hp
    obtain halike | ⟨-, hidle⟩ := h i
    · have hactive : (s.slot i).state.isActive = true := halike.state ▸ hi
      obtain hother | ⟨hidle, -⟩ := h p
      · exact htog.of_alike halike hother
      · rw [htog.1 hactive, hactive] at hidle
        cases hidle
    · rw [hidle] at hi
      cases hi

theorem of_alike (h : ∀ i, (s.slot i).Alike (t.slot i)) : t.PairsTogether :=
  hs.of_idle hpartner fun i => .inl (h i)

/-- Some slots leave the active states, and with a slot its partner. -/
theorem of_halted {hit : SlotId → Prop} (hmiss : ∀ i, ¬hit i → t.slot i = s.slot i)
    (hhit : ∀ i, hit i → (t.slot i).state.isActive = false)
    (hpair : ∀ i p, (s.slot i).partner = some p → (s.slot i).state.isActive = true →
      (s.slot i).Together (s.slot p) → hit p → hit i) : t.PairsTogether :=
  .of_active fun i p hp hi => by
    rw [hpartner] at hp
    have htog := hs.together hp
    have hno : ¬hit i := fun h => by
      rw [hhit i h] at hi
      cases hi
    rw [hmiss i hno] at hi ⊢
    rw [hmiss p fun h => hno (hpair i p hp hi htog h)]
    exact htog

omit hpartner in
/-- The exit test touches no active slot (R15). -/
theorem of_exited (high : Bool) (h : ∀ i, t.slot i = (s.slot i).exited high) : t.PairsTogether :=
  hs.of_idle (fun i => by rw [h, Slot.exited_partner]) fun i => by
    rw [h, Slot.exited]
    split
    · next hoff => exact .inr ⟨by rw [hoff.1]; rfl, rfl⟩
    · exact .inl (.refl _)

omit hpartner in
/-- A slot out of the active states is replaced by another such record. -/
theorem setSlot_idle {i : SlotId} {x : Slot} (hp : x.partner = (s.slot i).partner)
    (hi : (s.slot i).state.isActive = false) (hx : x.state.isActive = false) : (s.setSlot i x).PairsTogether :=
  hs.of_idle
    (fun j => by
      rw [State.slot_setSlot]
      split
      · next h => exact h ▸ hp
      · rfl)
    fun j => by
      rw [State.slot_setSlot]
      split
      · next h => exact .inr ⟨h ▸ hi, hx⟩
      · exact .inl (.refl _)

end State.PairsTogether

/-! ### The operations on a pair -/

/-- A completion takes the members that are in CALIBRATING (R11). -/
theorem State.mem_calMembers_iff {i m : SlotId} (hi : (s.slot i).state = .calibrating) :
    m ∈ s.calMembers i ↔ (m = i ∨ (s.slot i).partner = some m) ∧ (s.slot m).state = .calibrating := by
  rw [State.mem_calMembers hi]
  constructor
  · rintro (rfl | ⟨hm, hc⟩)
    · exact ⟨.inl rfl, hi⟩
    · exact ⟨.inr hm, hc⟩
  · rintro ⟨rfl | hm, hc⟩
    · exact .inl rfl
    · exact .inr ⟨hm, hc⟩

theorem State.calMembers_calibrating {i m : SlotId} (hdue : s.calDue i = true) (hm : m ∈ s.calMembers i) :
    (s.slot m).state = .calibrating :=
  ((State.mem_calMembers_iff (State.calDue_iff.mp hdue).1).mp hm).2

theorem State.reformPermissions_not_active (h : ∀ i, (s.slot i).state.isActive = false) (i : SlotId) :
    (s.reformPermissions.slot i).state.isActive = false := by
  rw [State.reformPermissions_slot, Slot.formed_of_not_active (h i)]
  exact h i

theorem Slot.torqueOff_not_active (x : Slot) : x.torqueOff.state.isActive = false := by
  unfold Slot.torqueOff
  split
  · rfl
  · next h => simpa using h

/-- A slot is one of a pair exactly if its partner is (R18). -/
theorem State.Mutual.mem_pair_iff (hm : s.Mutual) {i j p : SlotId} (hp : (s.slot j).partner = some p) :
    (j = i ∨ (s.slot i).partner = some j) ↔ (p = i ∨ (s.slot i).partner = some p) := by
  have hone : ∀ j p, (s.slot j).partner = some p → (j = i ∨ (s.slot i).partner = some j) →
      (p = i ∨ (s.slot i).partner = some p) := by
    rintro j p hp (rfl | hij)
    · exact .inr hp
    · have hback := hm i j hij
      rw [hp] at hback
      exact .inl (Option.some.inj hback)
  exact ⟨hone j p hp, hone p j (hm j p hp)⟩

theorem Slot.disabled_not_active (x : Slot) : x.disabled.state.isActive = false := by
  unfold Slot.disabled
  cases hx : x.state <;> simp only [hx] <;> rfl

/-- Both members of a pair count down from the stop time of one slot, the lead (R14, R19). -/
theorem State.Mutual.leadOf_eq (hm : s.Mutual) {i p : SlotId} (hp : (s.slot i).partner = some p) :
    s.leadOf p = s.leadOf i := by
  unfold State.leadOf
  rw [hp, hm i p hp]
  rcases lt_trichotomy p i with h | rfl | h
  · simp [h, h.not_gt]
  · rfl
  · simp [h, h.not_gt]

section
variable (hs : s.PairsTogether) (hm : s.Mutual)
include hs hm

/-- The notice of a slot faults its active partner (R16). -/
theorem State.PairsTogether.takeNotice (i : SlotId) (c : Cause) (leg : Option LegId) :
    (s.takeNotice i c leg).PairsTogether := by
  by_cases hi : (s.slot i).state.isActive = true
  · have hslot := fun j => s.takeNotice_slot i j c leg hi
    refine hs.of_halted (fun j => ((s.takeNotice_halts i c leg).slots j).kept.2.1)
      (hit := fun j => i = j ∨ s.takesPartner i j = true) (fun j hj => ?_) (fun j hj => ?_)
      fun j p hp hj _ hit => ?_
    · obtain ⟨hij, htakes⟩ := not_or.mp hj
      rw [hslot, if_neg hij, if_neg htakes]
    · rw [hslot]
      by_cases hij : i = j
      · rw [if_pos hij]
        rfl
      · rw [if_neg hij, if_pos (hj.resolve_left hij)]
        rfl
    · by_cases hij : i = j
      · exact .inl hij
      · refine .inr ?_
        obtain rfl | htakes := hit
        · simp [State.takesPartner, hm j i hp, hij, hj]
        · simp only [State.takesPartner, Bool.and_eq_true, decide_eq_true_eq] at htakes
          have hback := hm i p htakes.1.1
          rw [hm j p hp] at hback
          exact absurd (Option.some.inj hback).symm hij
  · rw [State.takeNotice_of_not_active s i c leg (by simpa using hi)]
    exact hs

/-- The counters of a pair run out together (R14, R19). -/
theorem State.PairsTogether.stopExpiry (i : SlotId) : (s.stopExpiryWork i).PairsTogether := by
  have hslot := s.stopExpiryWork_slot i
  refine hs.of_halted (fun j => ((s.stopExpiryWork_halts i).slots j).kept.2.1)
    (hit := fun j => s.stopExpired i = true ∧ (j = i ∨ (s.slot i).partner = some j ∧ s.stopExpired j = true))
    (fun j hj => by rw [hslot, if_neg hj]) (fun j hj => by rw [hslot, if_pos hj]; rfl)
    fun j p hp hj htog hit => ?_
  obtain ⟨hexp, hit⟩ := hit
  refine ⟨hexp, ?_⟩
  obtain rfl | ⟨hip, -⟩ := hit
  · refine .inr ⟨hm j p hp, ?_⟩
    obtain ⟨hst, hc⟩ := State.stopExpired_iff.mp hexp
    have hj' : (s.slot j).state = .stopping := (htog.1 hj).symm.trans hst
    exact State.stopExpired_iff.mpr ⟨hj', (htog.2 hj').1.symm.trans hc⟩
  · have hback := hm i p hip
    rw [hm j p hp] at hback
    exact .inl (Option.some.inj hback)

/-- DISABLE takes both members of a pair (R9, R19). -/
theorem State.PairsTogether.disable (i : SlotId) : ((s.members i).foldl State.disableSlot s).PairsTogether := by
  have hslot := s.disableMembers_slot i
  have hhalts := State.Halts.foldl (fun (u : State) j => u.disableSlot_halts j) (s.members i) s
  refine hs.of_halted (fun j => (hhalts.slots j).kept.2.1)
    (hit := fun j => j = i ∨ (s.slot i).partner = some j)
    (fun j hj => by rw [hslot, if_neg hj]) (fun j hj => by rw [hslot, if_pos hj]; exact Slot.disabled_not_active _)
    fun j p hp _ _ hit => ?_
  exact (hm.mem_pair_iff hp).mpr hit

/-- ENABLE takes both members of a pair (R8, R19). -/
theorem State.PairsTogether.enable (i : SlotId) : (s.enableSlots i).PairsTogether := by
  have hslot := s.enableSlots_slot i
  refine hs.of_each (fun j => by rw [hslot]; split <;> rfl) fun j p hp htog => ?_
  have hboth := hm.mem_pair_iff (i := i) hp
  rw [hslot, hslot]
  by_cases hj : j = i ∨ (s.slot i).partner = some j
  · rw [if_pos hj, if_pos (hboth.mp hj)]
    exact .of_state rfl SlotState.noConfusion
  · rw [if_neg hj, if_neg (mt hboth.mpr hj)]
    exact htog

/-- A calibration that completes takes an active slot exactly if it takes its partner (R11). -/
theorem State.PairsTogether.calMembers_pair {i j p : SlotId} (hdue : s.calDue i = true)
    (hp : (s.slot j).partner = some p) (hj : (s.slot j).state.isActive = true) :
    j ∈ s.calMembers i ↔ p ∈ s.calMembers i := by
  obtain ⟨hi, -⟩ := State.calDue_iff.mp hdue
  have hstate := (hs.together hp).1 hj
  rw [State.mem_calMembers_iff hi, State.mem_calMembers_iff hi, hm.mem_pair_iff hp, hstate]

/-- A calibration of a pair completes as one (R11). -/
theorem State.PairsTogether.calComplete (i : SlotId) : (s.calComplete i).PairsTogether := by
  have hslot := s.calComplete_slot i
  have hpartner : ∀ j, ((s.calComplete i).slot j).partner = (s.slot j).partner := fun j => by
    obtain ⟨-, h⟩ | h := s.calComplete_slot_cases i j
    · rw [h]
    · exact h.kept.2.1
  by_cases hall : ∀ m ∈ s.calMembers i, s.failingLeg m = none
  · simp only [if_pos hall] at hslot
    refine hs.of_each hpartner fun j p hp htog => ?_
    rw [hslot, hslot]
    by_cases hj : s.calDue i = true ∧ j ∈ s.calMembers i
    · obtain ⟨hdue, hmem⟩ := hj
      have hcal := State.calMembers_calibrating hdue hmem
      have hp' := (hs.calMembers_pair hm hdue hp (by rw [hcal]; rfl)).mp hmem
      rw [if_pos ⟨hdue, hmem⟩, if_pos ⟨hdue, hp'⟩]
      exact .of_state rfl SlotState.noConfusion
    · rw [if_neg hj]
      by_cases hactive : (s.slot j).state.isActive = true
      · rw [if_neg fun h => hj ⟨h.1, (hs.calMembers_pair hm h.1 hp hactive).mpr h.2⟩]
        exact htog
      · exact .of_not_active (by simpa using hactive)
  · simp only [if_neg hall] at hslot
    refine hs.of_halted hpartner (hit := fun j => s.calDue i = true ∧ j ∈ s.calMembers i)
      (fun j hj => by rw [hslot, if_neg hj]) (fun j hj => by rw [hslot, if_pos hj]; rfl)
      fun j p hp hj _ hit => ?_
    exact ⟨hit.1, (hs.calMembers_pair hm hit.1 hp hj).mpr hit.2⟩

/-- The permissions formed afresh take both members of a pair the same way (R12, R138). -/
theorem State.PairsTogether.reformed
    (hshared : ∀ i p, (s.slot i).partner = some p → (s.slot p).perm = (s.slot i).perm) :
    s.reformPermissions.PairsTogether := by
  have hslot := s.reformPermissions_slot
  refine hs.of_each (fun j => by rw [hslot, Slot.formed_partner]) fun j p hp htog => ?_
  rw [hslot, hslot, hm.leadOf_eq hp, s.formPermission_pair j hp (hm j p hp)]
  exact htog.formed (hshared j p hp) _ _

end

/-! ### A step -/

/-- Every operation keeps the members of a pair together. -/
theorem State.Move.keeps_pairs (h : s.Move t) (hheld : s.Held) (hperms : s.PermissionsHold)
    (hs : s.PairsTogether) : t.PairsTogether := by
  have hm : s.Mutual := hperms.pairs
  cases h with
  | quiet h => exact hs.of_alike h.partner fun i => .of_core (h.slots i)
  | unmark =>
    have hslot := s.slot_mapSlots fun _ x => { x with stopLoaded := false }
    refine hs.of_each (fun i => by rw [hslot]) fun i p hp htog => ?_
    rw [hslot, hslot]
    exact ⟨htog.1, fun hi => ⟨(htog.2 hi).1, rfl⟩⟩
  | notice i c leg => exact hs.takeNotice hm i c leg
  | toff high =>
    cases high with
    | true => exact hs.of_exited true fun i => s.acceptToff_high_slot i
    | false =>
      refine .of_none_active fun i => ?_
      rw [State.acceptToff_low_slot]
      exact Slot.torqueOff_not_active _
  | reform => exact hs.reformed hm fun i p hp => (hperms.shared i p hp).1
  | exitTest => exact hs.of_exited s.safety.toffHigh fun i => s.exitTest_slot i
  | allocate =>
    have hslot : ∀ i, ∃ k d, (s.allocate.slot i).core = { (s.slot i).core with kScale := k, demand := d } :=
      s.allocate_slot_eq
    refine hs.of_alike (fun i => ?_) fun i => ?_
    · obtain ⟨k, d, h⟩ := hslot i
      exact congrArg Slot.Core.partner h
    · obtain ⟨k, d, h⟩ := hslot i
      exact ⟨congrArg Slot.Core.state h, congrArg Slot.Core.stopCount h, congrArg Slot.Core.stopLoaded h⟩
  | countdown =>
    refine hs.of_each (fun i => ?_) fun i p hp htog => ?_
    · rw [State.countdown_slot, Slot.countDown]
      split <;> rfl
    · rw [State.countdown_slot, State.countdown_slot]
      exact htog.countDown
  | stopExpiry i => exact hs.stopExpiry hm i
  | compute g =>
    exact hs.of_alike (fun i => congrArg Slot.Core.partner (s.computeGroup_slot_core i g))
      fun i => .of_core (s.computeGroup_slot_core i g)
  | calComplete i => exact hs.calComplete hm i
  | periodStart g =>
    exact hs.of_alike (fun i => congrArg Slot.Core.partner (s.periodStart_slot_core i g))
      fun i => .of_core (s.periodStart_slot_core i g)
  | readVdc =>
    exact hs.of_alike (fun i => by rw [State.readVdc_slot]) fun i => by rw [State.readVdc_slot]; exact .refl _
  | turnOn | retarget | force => exact ⟨hs.states, hs.counters⟩
  | claim i d hmode ho =>
    refine hs.setSlot_idle rfl ?_ rfl
    rw [(hheld.owned i).mp ho]
    rfl
  | release i hi => exact hs.setSlot_idle rfl (by obtain h | h := hi <;> rw [h] <;> rfl) rfl
  | enable i => exact hs.enable hm i
  | disable i => exact hs.disable hm i
  | clear i hi => exact hs.setSlot_idle rfl (by rw [hi]; rfl) rfl
  | reserve i n =>
    refine hs.of_alike (fun j => ?_) fun j => ?_
    · rw [State.slot_setSlot]
      split
      · next h => subst h; rfl
      · rfl
    · rw [State.slot_setSlot]
      split
      · next h => subst h; exact ⟨rfl, rfl, rfl⟩
      · exact .refl _
  | writeItem i v =>
    exact hs.of_alike (fun j => congrArg Slot.Core.partner (s.writeItem_slot_core j i v))
      fun j => .of_core (s.writeItem_slot_core j i v)
  | enterSetup hparked =>
    refine .of_none_active (State.reformPermissions_not_active fun i => ?_)
    rw [State.setupEntered_slot, hparked i]
    rfl
  | leaveSetup hmode hv =>
    rw [State.toOperate_eq]
    refine .of_none_active (State.reformPermissions_not_active fun i => (s.setupLeft_slot_derived i).not_active ?_)
    rw [(hheld.outside (by rw [hmode]; decide) i).1]
    rfl

/-! ### Load complete (R178) -/

/-- The partners of a part that has loaded its image are those of a good image, or as they were. -/
theorem State.judgedStart_mutual (hm : s.Mutual) : s.judgedStart.compared.Mutual := by
  intro i p hp
  rw [State.compared_slot, State.judgedStart] at hp ⊢
  by_cases hgood : s.loadGood = true
  · obtain ⟨img, himage, hvalid⟩ : ∃ img : Image, s.judged.image = img ∧ img.validate = none :=
      ⟨_, s.judged_sameRest.image.trans (if_pos hgood),
        (imageOfPages s.loadBuf).validate_eq_none_iff.mpr (s.loadGood_iff.mp hgood).2.checks⟩
    rw [if_pos hgood, State.derived_slot, himage] at hp ⊢
    dsimp only at hp ⊢
    exact Image.partner_mutual hvalid hp
  · rw [if_neg hgood, State.judged_slot] at hp ⊢
    exact hm i p hp

theorem State.finishLoading_stopCounts (hs : s.StopCountsRest) : s.finishLoading.StopCountsRest := by
  rw [State.finishLoading_eq]
  exact .reformed fun i => Slot.Counted.derived (hs i) (s.judgedStart_slot_derived i)

theorem State.finishLoading_permissions (hs : s.PermissionsHold) : s.finishLoading.PermissionsHold := by
  rw [State.finishLoading_eq]
  exact .reformed (State.judgedStart_mutual hs.pairs) fun i =>
    (hs.permitted i).derived (s.judgedStart_slot_derived i)

theorem State.finishLoading_pairs (hm : s.mode = .loading) (hs : s.Held) : s.finishLoading.PairsTogether := by
  rw [State.finishLoading_eq]
  refine .of_none_active (State.reformPermissions_not_active fun i => (s.judgedStart_slot_derived i).not_active ?_)
  rw [(hs.outside (by rw [hm]; decide) i).1]
  rfl

/-! ### A step -/

theorem State.deviceReset_permissions (s : State) : s.deviceReset.PermissionsHold := by
  have hslot := s.deviceReset_slot
  constructor <;> simp [hslot, Slot.reset]

theorem State.PermissionsHold.of_slots (hs : s.PermissionsHold) (h : ∀ i, t.slot i = s.slot i) :
    t.PermissionsHold := by
  constructor <;> simp only [h]
  exacts [hs.pairs, hs.shared, hs.running, hs.stopping]

theorem State.StopCountsRest.step (hs : s.StopCountsRest) (hheld : s.Held) (hstep : Machine.step s = .next t) :
    t.StopCountsRest :=
  (step_keeps (P := fun u => u.Held ∧ u.StopCountsRest)
    (fun _ _ h ⟨hu, hc⟩ => ⟨h.keeps_held hu, h.keeps_stopCounts hu.owned hc⟩)
    (fun u => ⟨u.deviceReset_held, fun i _ => by rw [State.deviceReset_slot]; rfl⟩)
    (fun _ hm ⟨hu, hc⟩ => ⟨(State.rstReleased_tenure hm).held hu, fun i => by
      rw [State.rstReleased_slot hm]
      exact hc i⟩)
    (fun _ hm ⟨hu, hc⟩ => ⟨(State.finishLoading_tenure hm).held hu, State.finishLoading_stopCounts hc⟩)
    ⟨hheld, hs⟩ hstep).2

theorem State.PermissionsHold.step (hs : s.PermissionsHold) (hheld : s.Held)
    (hstep : Machine.step s = .next t) : t.PermissionsHold :=
  (step_keeps (P := fun u => u.Held ∧ u.PermissionsHold)
    (fun _ _ h ⟨hu, hp⟩ => ⟨h.keeps_held hu, h.keeps_permissions hu.owned hp⟩)
    (fun u => ⟨u.deviceReset_held, u.deviceReset_permissions⟩)
    (fun _ hm ⟨hu, hp⟩ => ⟨(State.rstReleased_tenure hm).held hu, hp.of_slots (State.rstReleased_slot hm)⟩)
    (fun _ hm ⟨hu, hp⟩ => ⟨(State.finishLoading_tenure hm).held hu, State.finishLoading_permissions hp⟩)
    ⟨hheld, hs⟩ hstep).2

/-- Pairs stay together where the permissions hold and every slot is in its owner's hands. -/
theorem State.PairsTogether.step (hs : s.PairsTogether) (hheld : s.Held) (hperms : s.PermissionsHold)
    (hstep : Machine.step s = .next t) : t.PairsTogether :=
  (step_keeps (P := fun u => u.Held ∧ u.PermissionsHold ∧ u.PairsTogether)
    (fun _ _ h ⟨hu, hp, hpairs⟩ =>
      ⟨h.keeps_held hu, h.keeps_permissions hu.owned hp, h.keeps_pairs hu hp hpairs⟩)
    (fun u => ⟨u.deviceReset_held, u.deviceReset_permissions, .of_none_active fun i => by
      rw [State.deviceReset_slot]
      rfl⟩)
    (fun _ hm ⟨hu, hp, hpairs⟩ =>
      ⟨(State.rstReleased_tenure hm).held hu, hp.of_slots (State.rstReleased_slot hm),
        hpairs.of_alike (fun i => by rw [State.rstReleased_slot hm]) fun i => by
          rw [State.rstReleased_slot hm]
          exact .refl _⟩)
    (fun _ hm ⟨hu, hp, _⟩ =>
      ⟨(State.finishLoading_tenure hm).held hu, State.finishLoading_permissions hp,
        State.finishLoading_pairs hm hu⟩)
    ⟨hheld, hperms, hs⟩ hstep).2.2

/-- Settles O58: each rule is kept by every operation, with the rules that it leans on. -/
theorem stepKeepsSlotRules : Obligations.StepKeepsSlotRules := by
  intro s t howned hout hstep
  have hheld : s.Held := ⟨howned, hout⟩
  have ht : t.Held := hheld.step hstep
  exact ⟨ht.owned, ht.outside, fun hs => hs.step hheld hstep,
    fun hperms => ⟨hperms.step hheld hstep, fun hpairs => hpairs.step hheld hperms hstep⟩⟩

end Sys2Proof.Machine
end

section
/-! SUPPORT. The part after a device reset (R3, R55, R71, R91, R99, R116, R133, R151, R174, R177 to R179), and the
rules of every step in the state after reset. -/

namespace Sys2Proof.Machine

variable (s : State)

/-! ### The records after a device reset -/

theorem Slot.reset_afterReset : Slot.reset.AfterReset where
  state := rfl
  owner := rfl
  legSet := rfl
  group := rfl
  partner := rfl
  staged j := Vector.getElem_replicate j.isLt
  setpoint := ⟨rfl, rfl⟩
  angle := ⟨rfl, rfl, rfl⟩
  integrators := ⟨rfl, rfl⟩
  averages := ⟨rfl, rfl⟩
  budget := ⟨rfl, rfl, rfl⟩
  permission := ⟨rfl, rfl⟩
  stopCount := rfl
  causes := rfl
  firstFault := rfl
  snapshot := rfl

theorem State.reset_slot (i : SlotId) : State.reset.slot i = Slot.reset := by
  simp [State.slot, State.reset]

theorem State.reset_leg (l : LegId) : State.reset.leg l = Leg.reset := by
  simp [State.leg, State.reset]

theorem State.deviceReset_group (g : GroupId) : s.deviceReset.group g = Group.reset := by
  simp [State.deviceReset, State.group, State.reset]

theorem State.deviceReset_drive (d : DriveLink) : s.deviceReset.drive d = DriveRec.reset := by
  simp [State.deviceReset, State.drive, State.reset]

theorem State.deviceReset_port (k : Link) :
    s.deviceReset.port k = { Port.reset with selLow := (s.port k).selLow } := by
  simp [State.deviceReset, State.port]

/-- Settles O3: each slot record is the one of R3's table; a link reset writes one port and one drive link. -/
theorem deviceResetSetsSlots : Obligations.DeviceResetSetsSlots := by
  refine ⟨fun i => ?_, fun s => ⟨s.deviceReset, rfl, fun i => ?_⟩, fun s d howed hcount =>
    ⟨_, State.exec_linkReset_front howed hcount, fun i => ?_⟩⟩
  · rw [State.reset_slot]
    exact Slot.reset_afterReset
  · rw [State.deviceReset_slot]
    exact Slot.reset_afterReset
  · rw [State.linkResetNow_drive]
    rfl

/-! ### The defaults (R179) -/

theorem Image.default_getElem (n : Nat) (h : n < 256) : Image.default[n] = defaultWord n := Vector.getElem_ofFn h

theorem default_globals : (Image.default.toList.take 27).map BitVec.toNat =
    [8000, 1024, 12800, 23040, 23680, 24320, 25600, 680, 800, 3125, 3125, 3125, 3125, 100, 100, 100, 100, 50, 50,
      50, 50, 500, 3, 8, 512, 0, 0] := by
  have hwords : Image.default.toList.take 27 = (List.range' 0 27).map defaultWord := by
    refine List.ext_getElem (by simp) fun n _ _ => ?_
    simp [Image.default]
  rw [hwords]
  decide

/-- Every leg is UNUSED, and bytes not assigned are 0. -/
theorem defaultWord_zero {n : Nat} (h : 27 ≤ n ∧ n < 56 ∨ 184 ≤ n ∧ n < 255) : defaultWord n = 0#16 := by
  unfold defaultWord
  rw [if_neg (by omega), if_neg (by omega)]
  split
  · rfl
  · exact if_neg (by omega)

theorem defaultWord_slot (m : SlotId) (j : Fin 16) :
    defaultWord (56 + 16 * m.val + j.val) = slotDefaults.getD j.val 0#16 := by
  unfold defaultWord
  rw [if_neg (by omega), if_neg (by omega), if_neg (by omega), if_pos (by omega)]
  congr 1
  omega

theorem default_slot (m : SlotId) :
    ((List.finRange 16).map fun j => (Image.default[56 + 16 * m.val + j.val]'(by omega)).toNat) =
      [256, 256, 0, 0, 30146, 0, 0, 0, 32767, 2, 1024, 4, 2048, 0, 200, 255] := by
  simp only [Image.default_getElem, defaultWord_slot]
  decide

/-- With the undervoltage flag in the global set and no flag masked, FLT is driven LOW (R99, R160). -/
theorem State.deviceReset_fltLow : s.deviceReset.fltLow = true := by
  have hmask : Image.default.maskFlags = 0#16 := by
    rw [Image.maskFlags, Image.default_item]
    rfl
  have hglobal : (s.deviceReset.globalSet &&& ~~~s.deviceReset.image.maskFlags != 0#16) = true := by
    change (0x0003#16 &&& ~~~Image.default.maskFlags != 0#16) = true
    rw [hmask]
    decide
  rw [State.fltLow, hglobal, Bool.or_true]

/-- Settles O4: every record and register after a device reset is read off. -/
theorem deviceResetDarkensPart : Obligations.DeviceResetDarkensPart := by
  refine fun s => ⟨s.deviceReset, rfl, s.deviceReset_leg, fun g => ⟨s.deviceReset_group g, rfl⟩, fun i => ?_, rfl,
    rfl, rfl, rfl, s.deviceReset_fltLow, s.deviceReset_port, s.deviceReset_drive, rfl, rfl, default_globals,
    fun n hn => (Image.default_getElem n n.isLt).trans (defaultWord_zero hn), default_slot,
    Image.default_getElem 255 (by omega), rfl, rfl, rfl, rfl, rfl, rfl, rfl, rfl, rfl, rfl, rfl, rfl⟩
  have hslot := s.deviceReset_slot i
  refine ⟨?_, ?_⟩
  · rw [State.legsOff, hslot]
    rfl
  · rw [hslot]
    exact ⟨Slot.reset_afterReset, rfl, rfl, rfl, rfl, rfl, rfl, rfl, rfl, rfl⟩

/-! ### The rules of every step after reset -/

theorem Leg.reset_isOff : Leg.reset.IsOff := ⟨rfl, rfl, rfl, rfl, rfl⟩

/-- Settles O60: all slots are PARKED and all legs off. -/
theorem resetIsSafe : Obligations.ResetIsSafe := by
  have hslot := State.reset_slot
  have hleg := State.reset_leg
  constructor
  · exact fun l => (hleg l).symm ▸ Leg.reset_isOff.interlocked
  · exact .of_parts (fun _ i => by rw [hslot]; rfl) fun l => by
      rw [hleg]
      exact .of_isOff Leg.reset_isOff rfl
  · exact fun i => by rw [hslot]; exact ⟨fun _ => rfl, fun _ => rfl⟩
  · exact fun _ i => by rw [hslot]; exact ⟨rfl, rfl⟩
  · constructor <;> simp [hslot, Slot.reset]
  · exact fun i _ => by rw [hslot]; rfl
  · exact .of_none_active fun i => by rw [hslot]; rfl
  · exact ⟨fun i _ => by rw [hslot]; rfl, by simp only [hslot]; exact (Nat.zero_le _ : 0 ≤ State.reset.image.iIn)⟩
  · exact ⟨fun i => by rw [hslot]; exact ⟨le_rfl, Nat.zero_le _⟩, le_rfl⟩
  · exact ⟨fun d => by simp [State.drive, State.reset, DriveRec.reset],
      fun k => by simp [State.port, State.reset, Port.reset]⟩

end Sys2Proof.Machine
end

section
/-! SUPPORT. One halt, one notice, one stop counter run out, one change of target (R14, R16, R17, R19, R56), and who
may write what (R21). -/

namespace Sys2Proof.Machine

variable {s : State} {i j : SlotId}

/-! ### A halt (R17, R28, R64, R84) -/

/-- Settles O18: a halt writes one slot record and the legs of its leg set. -/
theorem haltTurnsLegsOff : Obligations.HaltTurnsLegsOff := by
  intro s i st t
  have hslot : ∀ j, t.slot j = if i = j then (s.slot i).leave st else s.slot j :=
    fun j => s.haltSlot_slot i j st
  have hleg : ∀ l, t.leg l = if (s.slot i).holds l then (s.leg l).turnOff else s.leg l :=
    fun l => s.haltSlot_leg i l st
  refine ⟨?_, fun j hj => ?_, hleg, (s.haltSlot_sameRest i st).frame⟩
  · rw [hslot, if_pos rfl]
    rfl
  · rw [hslot, if_neg (Ne.symm hj)]

/-! ### A notice (R16, R153) -/

/-- The slot that a notice takes along is the active partner, where no slot is its own partner (R18). -/
theorem State.takesPartner_iff (hself : (s.slot i).partner ≠ some i) :
    s.takesPartner i j = true ↔ (s.slot i).partner = some j ∧ (s.slot j).state.isActive = true := by
  simp only [State.takesPartner, Bool.and_eq_true, decide_eq_true_eq]
  refine ⟨fun ⟨⟨hp, _⟩, ha⟩ => ⟨hp, ha⟩, fun ⟨hp, ha⟩ => ⟨⟨hp, ?_⟩, ha⟩⟩
  rintro rfl
  exact hself hp

/-- Settles O11: a notice for an active slot, for its slot, its active partner, any other slot, and the legs. -/
theorem noticeFaultsSlotAndPartner : Obligations.NoticeFaultsSlotAndPartner := by
  intro s i c leg hself faulted withIt t
  refine ⟨s.takeNotice_of_not_active i c leg, fun hi => ?_⟩
  have hslot : ∀ j, t.slot j = _ := fun j => s.takeNotice_slot i j c leg hi
  have hleg : ∀ l, t.leg l = _ := fun l => s.takeNotice_leg i l c leg hi
  have hwith : ∀ j, s.takesPartner i j = true ↔ withIt j := fun j => State.takesPartner_iff hself
  refine ⟨?_, fun j hj => ?_, fun j hne hj => ?_, fun l hl => ?_, fun l hi hp => ?_,
    (s.takeNotice_sameRest i c leg).frame⟩
  · rw [hslot, if_pos rfl]
    rfl
  · have hne : i ≠ j := by
      rintro rfl
      exact hself hj.1
    rw [hslot, if_neg hne, if_pos ((hwith j).mpr hj)]
    rfl
  · rw [hslot, if_neg (Ne.symm hne), if_neg (mt (hwith j).mp hj)]
  · rw [hleg]
    refine if_pos (hl.imp id ?_)
    rintro ⟨j, hj, hheld⟩
    exact ⟨j, (hwith j).mpr hj, hheld⟩
  · rw [hleg]
    refine if_neg ?_
    rintro (hheld | ⟨j, hj, hheld⟩)
    · exact absurd (hi.symm.trans hheld) Bool.false_ne_true
    · exact absurd ((hp j ((hwith j).mp hj)).symm.trans hheld) Bool.false_ne_true

/-! ### A stop counter run out (R14, R19) -/

/-- Settles O17: the work of one slot, alone, with a partner that has run out too, and with one that has not. -/
theorem stopExpiryHoldsSlotOff : Obligations.StopExpiryHoldsSlotOff := by
  intro s i ws howed hst hcount
  have hexp : s.stopExpired i = true := State.stopExpired_iff.mpr ⟨hst, hcount⟩
  have hexec : exec (.stopCounterExpiry i) s = (s.stopExpiryWork i).thenWorks ws :=
    State.next_takeRow_front howed hexp
  rw [hexec]
  refine ⟨fun hp => ?_, fun p hp hne hpst hpcount => ?_, fun p hp hno => ?_⟩
  · rw [State.stopExpiryWork_alone hexp hp]
  · rw [State.stopExpiryWork_pair hexp hp, State.haltSlot_stopExpired, if_pos]
    simpa using ⟨Ne.symm hne, State.stopExpired_iff.mpr ⟨hpst, hpcount⟩⟩
  · rw [State.stopExpiryWork_pair hexp hp, State.haltSlot_stopExpired, if_neg]
    simp only [Bool.and_eq_true, decide_eq_true_eq, State.stopExpired_iff]
    rintro ⟨hne, hpst, hpcount⟩
    obtain h | h | h := hno
    · exact hne h.symm
    · exact h hpst
    · exact h hpcount

/-! ### A change of target (R56) -/

/-- Settles O27: each new target, with a dead time and without one. -/
theorem targetChangeTakesDeadTime : Obligations.TargetChangeTakesDeadTime := by
  intro x dt now t y
  refine ⟨fun h => if_pos h, fun hne => ?_⟩
  have hy : y = x.setTarget dt now t := rfl
  cases t with
  | none =>
    have hnone : y = { x with target := .none, gh := false, gl := false, pendingOn := none } := if_neg hne
    rw [hnone]
    exact ⟨rfl, fun _ => ⟨rfl, rfl, rfl⟩, nofun, nofun, rfl⟩
  | high =>
    have hhigh : y =
        if dt = 0 then { x with target := .high, gl := false, gh := true, pendingOn := none }
        else { x with target := .high, gl := false, pendingOn := some ⟨.high, now + dt⟩ } := if_neg hne
    rw [hhigh]
    by_cases hdt : dt = 0
    · rw [if_pos hdt]
      exact ⟨rfl, nofun, fun _ => ⟨rfl, fun _ => ⟨rfl, rfl⟩, fun h => by omega⟩, nofun, rfl⟩
    · rw [if_neg hdt]
      exact ⟨rfl, nofun, fun _ => ⟨rfl, fun h => absurd h hdt, fun _ => ⟨rfl, rfl⟩⟩, nofun, rfl⟩
  | low =>
    have hlow : y =
        if dt = 0 then { x with target := .low, gh := false, gl := true, pendingOn := none }
        else { x with target := .low, gh := false, pendingOn := some ⟨.low, now + dt⟩ } := if_neg hne
    rw [hlow]
    by_cases hdt : dt = 0
    · rw [if_pos hdt]
      exact ⟨rfl, nofun, nofun, fun _ => ⟨rfl, fun _ => ⟨rfl, rfl⟩, fun h => by omega⟩, rfl⟩
    · rw [if_neg hdt]
      exact ⟨rfl, nofun, nofun, fun _ => ⟨rfl, fun h => absurd h hdt, fun _ => ⟨rfl, rfl⟩⟩, rfl⟩

/-! ### Who may write what (R21) -/

/-- Settles O43: a protected item goes by the mode, a tuning item by its slot's state and owner. -/
theorem writeAccessTable : Obligations.WriteAccessTable := by
  intro s d
  refine ⟨fun i hi => ?_, fun n j hj => ?_⟩
  · cases i with
    | global g => rfl
    | leg l => rfl
    | slot n j =>
      have hj : ¬j.val < 7 := by simpa [Item.tuning] using hi
      exact if_neg hj
  · intro x
    have haccess : s.writeAccess d (.slot n j) = _ := if_pos hj
    have howner : answer .notOwner (ownerCode x.owner) 0 = ⟨.notOwner, natWord (ownerCode x.owner), 0#16⟩ :=
      congrArg (Answer.mk .notOwner · 0#16) (toWord_natCast _)
    rw [haccess]
    by_cases hparked : x.state = .parked
    · rw [if_pos hparked, if_pos hparked]
      rfl
    · rw [if_neg hparked, if_neg hparked]
      by_cases hother : x.owner ≠ some d
      · rw [if_pos hother, if_pos hother, howner]
      · rw [if_neg hother, if_neg hother]
        change (if x.state = .claimed then _ else if x.state.isActive then _ else
          WriteAccess.refused (answer .wrongState x.state.code 0)) = _
        revert hparked
        cases x.state
        case parked => exact fun h => absurd rfl h
        all_goals exact fun _ => rfl

end Sys2Proof.Machine
end

section
/-! SUPPORT. The requests that act on one slot (R5 to R10) and FORCE_LEG (R68, R69): their checks, their answers and
what each changes. -/

namespace Sys2Proof.Machine

/-! ### The checks of R5 -/

section
variable {d : DriveLink} {r : Request} {s : State}

theorem answered_code (c : ResultCode) (v1 v2 : Nat) :
    answered d r (s, answer c v1 v2) = s.respond d r c (natWord v1) (natWord v2) := by
  rw [answered_answer, toWord_natCast, toWord_natCast]

/-- A request that passes the checks of R5 has a slot for its target, and one that fails is answered by the first
check that fails and changes nothing; `wrong` are the states it is refused in. -/
theorem answered_checked {taken : SlotState → Bool} {out : State × Answer} (wrong : SlotState → Prop)
    [DecidablePred wrong] {done : r.target.toNat < 8 → State} (hwrong : ∀ st, taken st = false ↔ wrong st)
    (herror : ∀ a, slotCheck true taken d r s = .error a → out = (s, a))
    (hok : ∀ h, slotCheck true taken d r s = .ok ⟨r.target.toNat, h⟩ → answered d r out = done h) :
    answered d r out =
      if h : r.target.toNat < 8 then
        if s.mode ≠ .operate then s.respond d r .wrongMode 0#16 0#16
        else if (s.slot ⟨r.target.toNat, h⟩).owner ≠ some d then
          s.respond d r .notOwner (natWord (ownerCode (s.slot ⟨r.target.toNat, h⟩).owner)) 0#16
        else if wrong (s.slot ⟨r.target.toNat, h⟩).state then
          s.respond d r .wrongState (natWord (s.slot ⟨r.target.toNat, h⟩).state.code) 0#16
        else done h
      else s.respond d r .badValue 0#16 0#16 := by
  by_cases h : r.target.toNat < 8
  · have hcheck : slotCheck true taken d r s = _ := dif_pos h
    rw [dif_pos h]
    by_cases hm : s.mode ≠ .operate
    · rw [if_pos hm, herror _ (hcheck.trans (if_pos hm))]
      rfl
    · rw [if_neg hm]
      replace hcheck := hcheck.trans (if_neg hm)
      by_cases ho : (s.slot ⟨r.target.toNat, h⟩).owner ≠ some d
      · rw [if_pos ho, herror _ (hcheck.trans (if_pos ⟨rfl, ho⟩))]
        exact answered_code _ _ 0
      · rw [if_neg ho]
        replace hcheck := hcheck.trans (if_neg fun hn => ho hn.2)
        by_cases hw : wrong (s.slot ⟨r.target.toNat, h⟩).state
        · rw [if_pos hw, herror _ (hcheck.trans (if_pos ((hwrong _).mpr hw)))]
          exact answered_code _ _ 0
        · rw [if_neg hw]
          exact hok _ (hcheck.trans (if_neg (mt (hwrong _).mp hw)))
  · rw [dif_neg h, herror _ (dif_neg h)]
    rfl

end

/-- The command that serves the request at the head of the queue answers it and goes on with the works left. -/
theorem State.Serves.exec_eq {s : State} {d : DriveLink} {r : Request} {rest : List Request} {ws : List Work}
    (hs : s.Serves d r rest ws) {k : Kind} (hk : Kind.ofCode r.kind = k)
    (f : DriveLink → Request → State → State × Answer) :
    (.next (s.takeServed d k fun t => t.serveWith d f) : Host.Outcome State Fault Refusal) =
      (answered d r (f d r (s.dequeued d rest))).thenWorks ws :=
  congrArg Host.Outcome.next (hs.takeServed hk f)

variable {s : State} {i p : SlotId}

/-! ### CLAIM (R6) -/

/-- Settles O34: CLAIM has no owner and no state to check; the slot must be configured and free. -/
theorem claimAnswers : Obligations.ClaimAnswers := by
  intro s d r rest ws hs hk u
  refine (hs.exec_eq (by rw [hk]; rfl) doClaim).trans (congrArg (State.thenWorks · ws) ?_)
  change answered d r (doClaim d r u) = _
  by_cases h : r.target.toNat < 8
  · have hcheck : slotCheck false (fun _ => true) d r u = _ := dif_pos h
    rw [dif_pos h]
    by_cases hm : u.mode ≠ .operate
    · rw [doClaim, hcheck.trans (if_pos hm)]
      exact (if_pos hm).symm
    · rw [doClaim, (hcheck.trans (if_neg hm)).trans ((if_neg (by simp)).trans (if_neg (by simp)))]
      refine Eq.trans ?_ (if_neg hm).symm
      dsimp only
      rw [apply_ite (answered d r)]
      refine ite_congr (propext List.isEmpty_iff) (fun _ => rfl) fun _ => ?_
      cases ho : (s.slot ⟨r.target.toNat, h⟩).owner with
      | none =>
        rw [show (u.slot ⟨r.target.toNat, h⟩).owner = none from ho]
        rfl
      | some e =>
        rw [show (u.slot ⟨r.target.toNat, h⟩).owner = some e from ho]
        dsimp only
        rw [apply_ite (answered d r)]
        exact ite_congr rfl (fun _ => answered_code _ _ 0) fun _ => answered_code _ _ 0
  · rw [dif_neg h, doClaim, show slotCheck false (fun _ => true) d r u = _ from dif_neg h]
    rfl

/-! ### RELEASE (R7) -/

/-- Settles O35: RELEASE is taken in CLAIMED and OFF_HELD. -/
theorem releaseAnswers : Obligations.ReleaseAnswers := by
  intro s d r rest ws hs hk u
  refine (hs.exec_eq (by rw [hk]; rfl) doRelease).trans (congrArg (State.thenWorks · ws) ?_)
  exact answered_checked (s := u) (taken := fun st => st = .claimed || st = .offHeld)
    (fun st => st ≠ .claimed ∧ st ≠ .offHeld)
    (fun st => by cases st <;> simp)
    (fun a ha => by rw [doRelease, ha]) fun i hi => by rw [doRelease, hi]; rfl

/-! ### ENABLE (R8) -/

theorem Permission.permits_eq_false_iff {q : Permission} : q.permits = false ↔ q = .stop ∨ q = .off := by
  cases q <;> decide

/-- A slot that is its own partner is enabled once (R8). -/
theorem State.enabled_partner :
    ((s.setSlot i (s.slot i).enabled).slot p).enabled = (s.slot p).enabled := by
  rw [State.slot_setSlot]
  split
  · next h => subst h; rfl
  · rfl

/-- Settles O36: behind the checks of R5 come the permission and TOFF, the DC link, and the partner. -/
theorem enableAnswers : Obligations.EnableAnswers := by
  intro s d r rest ws hs hk u on
  refine (hs.exec_eq (by rw [hk]; rfl) doEnable).trans (congrArg (State.thenWorks · ws) ?_)
  refine answered_checked (s := u) (taken := fun st => st = .claimed) (fun st => st ≠ .claimed)
    (fun st => by cases st <;> simp)
    (fun a ha => by rw [doEnable, ha]) fun i hi => ?_
  rw [doEnable, hi]
  dsimp only
  rw [apply_ite (answered d r)]
  refine ite_congr (propext ?_) (fun _ => ?_) fun _ => ?_
  · rw [Permission.permits_eq_false_iff, or_assoc]
    rfl
  · rw [answered_answer, toWord_natCast, apply_ite toWord]
    rfl
  rw [apply_ite (answered d r)]
  refine ite_congr rfl (fun _ => answered_code _ _ 0) fun _ => ?_
  cases hp : (s.slot ⟨r.target.toNat, i⟩).partner with
  | none =>
    rw [show ((s.dequeued d rest).slot ⟨r.target.toNat, i⟩).partner = none from hp]
    rfl
  | some p =>
    rw [show ((s.dequeued d rest).slot ⟨r.target.toNat, i⟩).partner = some p from hp]
    dsimp only
    rw [apply_ite (answered d r)]
    refine ite_congr rfl (fun _ => answered_code _ _ _) fun _ => ?_
    rw [State.enabled_partner]
    rfl

/-! ### DISABLE (R9) -/

/-- Where DISABLE takes an active slot (R9). -/
def SlotState.disabledTo (st : SlotState) : SlotState := if st = .stopping then .offHeld else .claimed

theorem State.disableSlot_eq :
    s.disableSlot i =
      if (s.slot i).state.isActive then s.haltSlot i (s.slot i).state.disabledTo else s := by
  unfold State.disableSlot
  cases (s.slot i).state <;> rfl

theorem Slot.disabled_of_not_active {x : Slot} (h : x.state.isActive = false) : x.disabled = x := by
  unfold Slot.disabled
  cases hx : x.state <;> rw [hx] at h <;> cases h

theorem SlotState.disabledTo_not_active (st : SlotState) : st.disabledTo.isActive = false := by
  cases st <;> rfl

section
variable {d : DriveLink} {r : Request}

/-- A slot alone that DISABLE takes (R9). -/
theorem answered_disable_alone (hi : (s.slot i).state.isActive = true) (hp : (s.slot i).partner = none) :
    answered d r ((s.members i).foldl State.disableSlot s,
        answer .done (((s.members i).foldl State.disableSlot s).codeOf i)
          (((s.members i).foldl State.disableSlot s).partnerCodeOf i)) =
      (s.haltSlot i (s.slot i).state.disabledTo).respond d r .done (natWord (s.slot i).state.disabledTo.code)
        0#16 := by
  have hfold : (s.members i).foldl State.disableSlot s = s.haltSlot i (s.slot i).state.disabledTo := by
    rw [State.members, hp]
    exact State.disableSlot_eq.trans (if_pos hi)
  have hslot : (s.haltSlot i (s.slot i).state.disabledTo).slot i =
      (s.slot i).leave (s.slot i).state.disabledTo := by rw [State.haltSlot_slot, if_pos rfl]
  have hpartner : (s.haltSlot i (s.slot i).state.disabledTo).partnerCodeOf i = 0 := by
    rw [State.partnerCodeOf, hslot]
    rw [show ((s.slot i).leave (s.slot i).state.disabledTo).partner = none from hp]
  rw [hfold, hpartner, State.codeOf, hslot]
  exact answered_code _ _ 0

/-- A pair that DISABLE takes: the partner by the state it is found in (R9, R19). -/
theorem answered_disable_pair (hi : (s.slot i).state.isActive = true) (hp : (s.slot i).partner = some p) :
    answered d r ((s.members i).foldl State.disableSlot s,
        answer .done (((s.members i).foldl State.disableSlot s).codeOf i)
          (((s.members i).foldl State.disableSlot s).partnerCodeOf i)) =
      ((s.haltSlot i (s.slot i).state.disabledTo).disableSlot p).respond d r .done
        (natWord (s.slot i).state.disabledTo.code)
        (natWord (((s.haltSlot i (s.slot i).state.disabledTo).disableSlot p).slot p).state.code) := by
  have hfold : (s.members i).foldl State.disableSlot s =
      (s.haltSlot i (s.slot i).state.disabledTo).disableSlot p := by
    rw [State.members, hp]
    exact congrArg (State.disableSlot · p) (State.disableSlot_eq.trans (if_pos hi))
  have hslot : ((s.haltSlot i (s.slot i).state.disabledTo).disableSlot p).slot i =
      (s.slot i).leave (s.slot i).state.disabledTo := by
    rw [State.disableSlot_slot]
    split
    · next h =>
      subst h
      rw [State.haltSlot_slot, if_pos rfl]
      exact Slot.disabled_of_not_active (SlotState.disabledTo_not_active _)
    · rw [State.haltSlot_slot, if_pos rfl]
  have hpartner : ((s.haltSlot i (s.slot i).state.disabledTo).disableSlot p).partnerCodeOf i =
      ((s.haltSlot i (s.slot i).state.disabledTo).disableSlot p).codeOf p := by
    rw [State.partnerCodeOf, hslot]
    rw [show ((s.slot i).leave (s.slot i).state.disabledTo).partner = some p from hp]
  rw [hfold, hpartner, State.codeOf, hslot]
  exact answered_code _ _ _

end

/-- Settles O37: the slot goes by its own state, its partner by the state it is found in. -/
theorem disableAnswers : Obligations.DisableAnswers := by
  intro s d r rest ws hs hk u goal
  refine (hs.exec_eq (by rw [hk]; rfl) doDisable).trans (congrArg (State.thenWorks · ws) ?_)
  refine answered_checked (s := u) (taken := SlotState.isActive) (fun st => st.isActive = false) (fun st => .rfl)
    (fun a ha => by rw [doDisable, ha]) fun i hi => ?_
  have hactive : (u.slot ⟨r.target.toNat, i⟩).state.isActive = true := (slotCheck_ok hi).2.2
  rw [doDisable, hi]
  dsimp only
  cases hp : (s.slot ⟨r.target.toNat, i⟩).partner with
  | none => exact answered_disable_alone hactive hp
  | some p =>
    refine (answered_disable_pair hactive hp).trans ?_
    rw [State.disableSlot_eq]
    rfl

/-! ### CLEAR (R10, R152, R154) -/

theorem Cause.code_lt (c : Cause) : c.code < 11 := by cases c <;> decide

theorem Cause.code_injective : Function.Injective Cause.code := by
  intro c e h
  have hread : ∀ k : Cause, allCauses[k.code]? = some k := fun k => by cases k <;> rfl
  exact Option.some.inj ((hread c).symm.trans (h ▸ hread e))

theorem mem_allCauses (c : Cause) : c ∈ allCauses := by cases c <;> decide

/-- The bits of the gone causes are those of the causes whose source is not present (R152). -/
theorem State.goneCauses_getLsbD (s : State) (i : SlotId) (n : Nat) :
    (s.goneCauses i).getLsbD n = true ↔ ∃ c : Cause, c.code = n ∧
      s.causePresent i ((s.slot i).firstFault.bind FirstFault.leg) c = false := by
  have hfold := foldl_absent_getLsbD (fun c => (Cause.code_lt c).trans (by decide))
    (s.causePresent i ((s.slot i).firstFault.bind FirstFault.leg)) allCauses 0#16 n
  exact hfold.trans (by simp [mem_allCauses])

/-- A cause is gone when its source is not present (R152). -/
theorem State.goneCauses_iff (s : State) (i : SlotId) (c : Cause) :
    (s.goneCauses i).getLsbD c.code = true ↔
      s.causePresent i ((s.slot i).firstFault.bind FirstFault.leg) c = false := by
  rw [s.goneCauses_getLsbD]
  exact ⟨fun ⟨_, hcode, hgone⟩ => Cause.code_injective hcode ▸ hgone, fun hgone => ⟨c, rfl, hgone⟩⟩

theorem State.goneCauses_beyond (s : State) (i : SlotId) {n : Nat} (hn : 11 ≤ n) :
    (s.goneCauses i).getLsbD n = false := by
  rw [Bool.eq_false_iff, Ne, s.goneCauses_getLsbD]
  rintro ⟨c, hcode, -⟩
  have := c.code_lt
  omega

/-- A test made on the leg of the first-fault record fails when it fails on that leg, if there is one. -/
theorem any_eq_false_iff_forall {α : Type} {o : Option α} {f : α → Bool} :
    o.any f = false ↔ ∀ a, o = some a → f a = false := by
  cases o <;> simp

/-- Settles O38: a cause is gone with its source; behind the checks of R5 CLEAR goes by the causes left. -/
theorem clearAnswers : Obligations.ClearAnswers := by
  refine ⟨fun s i => ?_, fun s d r rest ws hs hk => ?_⟩
  · intro gone leg
    have hgone := s.goneCauses_iff i
    refine ⟨(hgone .overcurrent).trans ?_, (hgone .driver).trans ?_, (hgone .stream).trans ?_,
      hgone .currentSum, (hgone .legImbalance).trans ?_, (hgone .offset).mpr rfl,
      (hgone .moduleOvertemp).trans ?_, hgone .dcUndervoltage, hgone .dcOvervoltage,
      (hgone .partner).trans ?_, (hgone .setpointStale).mpr rfl, fun n hn => s.goneCauses_beyond i hn⟩
    · exact any_eq_false_iff_forall.trans (forall₂_congr fun l _ => decide_eq_false_iff_not.trans not_lt)
    · exact any_eq_false_iff_forall.trans (forall₂_congr fun l _ => by rw [Bool.not_eq_false'])
    · exact any_eq_false_iff_forall.trans (forall₂_congr fun l _ => decide_eq_false_iff_not.trans not_le)
    · refine any_eq_false_iff_forall.trans ?_
      simp only [any_eq_false_iff_forall]
      exact ⟨fun h l ph hl hph => h l hl ph hph, fun h l hl ph hph => h l ph hl hph⟩
    · exact any_eq_false_iff_forall.trans (forall₂_congr fun g _ => decide_eq_false_iff_not.trans not_le)
    · exact any_eq_false_iff_forall.trans (forall₂_congr fun p _ => beq_eq_false_iff_ne)
  · intro u
    refine (hs.exec_eq (by rw [hk]; rfl) doClear).trans (congrArg (State.thenWorks · ws) ?_)
    refine answered_checked (s := u) (taken := fun st => st = .fault) (fun st => st ≠ .fault)
      (fun st => by cases st <;> simp) (fun a ha => by rw [doClear, ha]) fun i hi => ?_
    rw [doClear, hi]
    dsimp only
    rw [apply_ite (answered d r), State.removeGone]
    simp only [State.slot_setSlot, if_true, State.setSlot_setSlot]
    refine ite_congr rfl (fun hnone => ?_) fun hleft => ?_
    · rw [show ((s.dequeued d rest).slot ⟨r.target.toNat, i⟩).causes &&&
        ~~~((s.dequeued d rest).goneCauses ⟨r.target.toNat, i⟩) = 0#16 from hnone]
      rfl
    · rw [if_neg (show ¬((s.dequeued d rest).slot ⟨r.target.toNat, i⟩).causes &&&
        ~~~((s.dequeued d rest).goneCauses ⟨r.target.toNat, i⟩) = 0#16 from hleft)]
      rfl

/-! ### FORCE_LEG (R68, R69) -/

/-- Settles O47: the checks come in order, and the leg is driven as the two arguments ask. -/
theorem forceLegAnswers : Obligations.ForceLegAnswers := by
  intro s d r rest ws hs hk u
  refine (hs.exec_eq (by rw [hk]; rfl) doForceLeg).trans (congrArg (State.thenWorks · ws) ?_)
  unfold doForceLeg
  rw [apply_dite (answered d r)]
  refine dite_congr rfl (fun htarget => ?_) fun _ => rfl
  dsimp only
  simp only [apply_ite (answered d r)]
  refine ite_congr rfl (fun _ => answered_code _ _ 0) fun _ => ?_
  refine ite_congr rfl (fun _ => answered_code _ _ 2) fun _ => ?_
  refine ite_congr (by simp) (fun _ => rfl) fun _ => ?_
  refine ite_congr (by simp) (fun _ => answered_code _ _ 1) fun _ => ?_
  by_cases hhigh : r.arg1 ≠ 0#16
  · rw [if_pos hhigh, if_pos (bne_iff_ne.mpr hhigh)]
    rfl
  · rw [if_neg hhigh, if_neg (mt bne_iff_ne.mp hhigh)]
    by_cases hlow : r.arg2 ≠ 0#16
    · rw [if_pos hlow, if_pos (bne_iff_ne.mpr hlow)]
      rfl
    · rw [if_neg hlow, if_neg (mt bne_iff_ne.mp hlow)]
      rfl

end Sys2Proof.Machine
end

section
/-! SUPPORT. CALIBRATION_COMPLETE (R11, R75, R82): a slot alone and a pair, passing and failing. -/

namespace Sys2Proof.Machine

variable {s : State} {i j : SlotId}

/-! ### The offsets of one slot (R75, R82) -/

theorem roundDiv_256 (x : Int) : roundDiv x 256 = (x + 128) / 256 := rfl

/-- The first leg out of range, as a search through the offsets (R11). -/
theorem State.failingLeg_eq_none_iff :
    s.failingLeg i = none ↔ ∀ p ∈ (s.slot i).newOffsets, p.2.natAbs ≤ s.image.ofsMax := by
  simp [State.failingLeg]

theorem State.failingLeg_of_find? {p : LegId × Int}
    (h : ((s.slot i).newOffsets.find? fun p => decide (s.image.ofsMax < p.2.natAbs)) = some p) :
    s.failingLeg i = some p.1 := congrArg (Option.map Prod.fst) h

/-! ### The members (R11, R19) -/

theorem State.calMembers_alone (hp : (s.slot i).partner = none) : s.calMembers i = [i] := by
  rw [State.calMembers, hp]
  rfl

theorem State.calMembers_of_pair (hp : (s.slot i).partner = some j) (hne : j ≠ i)
    (hj : (s.slot j).state = .calibrating) : s.calMembers i = [i, j] := by
  simp [State.calMembers, hp, hne, hj]

/-- The lower number of a pair leads it (R18). -/
theorem State.leadOf_lower (hp : (s.slot i).partner = some j) (hij : i < j) : s.leadOf i = i := by
  rw [State.leadOf, hp]
  exact if_neg hij.not_gt

theorem State.leadOf_higher (hp : (s.slot j).partner = some i) (hij : i < j) : s.leadOf j = i := by
  rw [State.leadOf, hp]
  exact if_pos hij

theorem State.leadOf_alone (hp : (s.slot i).partner = none) : s.leadOf i = i := by
  rw [State.leadOf, hp]

/-- Of two lists of offsets in a row the later one counts. -/
theorem Leg.takeOffset_takeOffset (x : Leg) (offs later : List (LegId × Int)) (l : LegId) :
    (x.takeOffset offs l).takeOffset later l =
      match later.find? fun p => p.1 = l with
      | some p => { x with offset := p.2 }
      | none => x.takeOffset offs l := by
  cases ho : offs.find? fun p => p.1 = l <;> cases hl : later.find? fun p => p.1 = l <;>
    simp [Leg.takeOffset, ho, hl]

/-- The legs of a pair that passes take the offsets of both members (R11, R75). -/
theorem State.calComplete_pass_leg {l : LegId} (hdue : s.calDue i = true) (hms : s.calMembers i = [i, j])
    (hne : i ≠ j) (hi : s.failingLeg i = none) (hj : s.failingLeg j = none) :
    (s.calComplete i).leg l =
      ((s.leg l).takeOffset (s.slot i).newOffsets l).takeOffset (s.slot j).newOffsets l := by
  have hpass : s.calComplete i = (s.calPass i).calPass j := by
    rw [State.calComplete_eq, if_pos hdue, hms, if_pos (by simp [hi, hj])]
    rfl
  rw [hpass, State.calPass_leg, State.calPass_leg, State.calPass_slot, if_neg hne]

/-! ### Legs after a failure (R64, R75) -/

theorem State.calFail_leg_offset (s : State) (m : SlotId) (leg : Option LegId) (l : LegId) :
    ((s.calFail m leg).leg l).offset = (s.leg l).offset := by
  cases leg <;> rw [State.calFail, State.recordFault_leg] <;> split <;> rfl

/-- No offset changes when a member fails (R11). -/
theorem State.calFails_leg_offset (s : State) (legs : SlotId → Option LegId) (ms : List SlotId) (l : LegId) :
    ((s.calFails legs ms).leg l).offset = (s.leg l).offset := by
  unfold State.calFails
  induction ms generalizing s with
  | nil => rfl
  | cons m ms ih => exact (ih _).trans (s.calFail_leg_offset m _ l)

/-- Settles O25: the command takes the completion of the slot's lead; a slot alone passes or fails by its first
failing leg, and of a pair each member is judged before either is moved. -/
theorem calibrationCompletes : Obligations.CalibrationCompletes := by
  intro s i ws c howed hst hcal hcount offs offsets
  have hdue : s.calDue i = true := State.calDue_iff.mpr ⟨hst, c, hcal, hcount⟩
  have hoffs : (s.slot i).newOffsets = offs := by rw [Slot.newOffsets, hcal]; rfl
  have hexec : s.leadOf i = i →
      exec (.calibrationComplete i) s = (s.calComplete i).thenWorks ws := fun hlead => by
    have hrow : exec (.calibrationComplete i) s = .next (s.takeRow (.calibrationComplete (s.leadOf i))
      (fun t => t.calDue (s.leadOf i)) fun t => t.calComplete (s.leadOf i)) := rfl
    rw [hrow, hlead]
    exact State.next_takeRow_front howed hdue
  refine ⟨fun j hp hback hij => ?_, fun hp hpass => ?_, fun hp p hfind => ?_, fun j hp hij hj => ?_⟩
  · have hrow : ∀ k, exec (.calibrationComplete k) s = .next (s.takeRow (.calibrationComplete (s.leadOf k))
      (fun t => t.calDue (s.leadOf k)) fun t => t.calComplete (s.leadOf k)) := fun _ => rfl
    rw [hrow, hrow, State.leadOf_higher hback hij, State.leadOf_lower hp hij]
  · have hall : ∀ m ∈ s.calMembers i, s.failingLeg m = none := by
      simp only [State.calMembers_alone hp, List.mem_singleton, forall_eq]
      exact State.failingLeg_eq_none_iff.mpr (hoffs ▸ hpass)
    rw [hexec (State.leadOf_alone hp), State.calComplete_eq, if_pos hdue, if_pos hall, State.calMembers_alone hp]
    rw [← hoffs]
    rfl
  · have hleg : s.failingLeg i = some p.1 := State.failingLeg_of_find? (hoffs ▸ hfind)
    have hfail : ¬∀ m ∈ s.calMembers i, s.failingLeg m = none := fun h => by
      rw [h i (by rw [State.calMembers_alone hp]; exact List.mem_singleton_self i)] at hleg
      cases hleg
    rw [hexec (State.leadOf_alone hp), State.calComplete_eq, if_pos hdue, if_neg hfail, State.calMembers_alone hp]
    change (s.calFail i (s.failingLeg i)).thenWorks ws = _
    rw [hleg]
    rfl
  · have hms := State.calMembers_of_pair hp hij.ne' hj
    have hslot : ∀ m, (s.calComplete i).slot m =
        if m = i ∨ m = j then
          if s.failingLeg i = none ∧ s.failingLeg j = none then { s.slot m with state := .run, cal := none }
          else (s.slot m).calFailed (s.failingLeg m) s.cyc.number
        else s.slot m := fun m => by
      rw [State.calComplete_slot, hms]
      simp [hdue]
    refine ⟨s.calComplete i, hexec (State.leadOf_lower hp hij), fun hi hj => ?_, fun hfail => ?_, fun m hmi hmj => ?_⟩
    · refine ⟨by rw [hslot, if_pos (.inl rfl), if_pos ⟨hi, hj⟩], by rw [hslot, if_pos (.inr rfl), if_pos ⟨hi, hj⟩],
        fun l => ?_⟩
      have hoffs' : (s.slot j).newOffsets = offsets j := rfl
      rw [State.calComplete_pass_leg hdue hms hij.ne hi hj, hoffs, hoffs', Leg.takeOffset_takeOffset]
      rfl
    · refine ⟨fun l => ?_, fun m hm => ?_⟩
      · rw [State.calComplete_eq, if_pos hdue, hms, if_neg (by simp; tauto)]
        exact s.calFails_leg_offset _ _ l
      · rw [hslot, if_pos hm, if_neg (by tauto)]
        refine ⟨rfl, rfl, ?_, fun hnone => (if_pos hnone).trans rfl⟩
        rw [← apply_ite Cause.bit]
        rfl
    · rw [hslot, if_neg (by simp [hmi, hmj])]

end Sys2Proof.Machine
end

section
/-! SUPPORT. CARRIER_COMPARE_MATCH and DEAD_TIME_TURN_ON (R56, R57, R60 to R62). -/

namespace Sys2Proof.Machine

variable {s : State} {l : LegId}

/-! ### The ideal state (R57, R61) -/

/-- The ideal state is HIGH from count HP - C to before HP + C (R61). -/
theorem idealState_eq {c hp n : Nat} (hc : c ≤ hp) (hn : n < 2 * hp) :
    idealState c hp n = if hp - c ≤ n ∧ n < hp + c then .high else .low := by
  unfold idealState
  dsimp only
  refine if_congr ?_ rfl rfl
  split <;> omega

theorem idealState_rise {c hp : Nat} (hc : 0 < c) (hlt : c < hp) : idealState c hp (hp - c) = .high := by
  rw [idealState_eq hlt.le (by omega), if_pos ⟨le_rfl, by omega⟩]

theorem idealState_fall {c hp : Nat} (hlt : c < hp) : idealState c hp (hp + c) = .low := by
  rw [idealState_eq hlt.le (by omega), if_neg fun h => absurd h.2 (lt_irrefl _)]

/-- At a period event a leg is HIGH for the whole period to come, or begins it LOW (R60). -/
theorem idealState_zero (c hp : Nat) : idealState c hp 0 = if hp ≤ c then .high else .low := by
  unfold idealState
  dsimp only
  refine if_congr ?_ rfl rfl
  split <;> omega

/-! ### A compare match (R61) -/

theorem State.matchDue_iff :
    s.matchDue l = true ↔ s.mode = .operate ∧ (s.leg l).drive = .switching ∧
      ∃ c, (s.leg l).active = some c ∧ 0 < c ∧ c < s.image.hp (groupOf l) := by
  simp [State.matchDue, Option.any_eq_true, and_assoc]

/-- A match that stands out, its instant not passed: the leg follows the ideal state of its count. -/
theorem State.carrierCompareMatch_eq {c : Nat} (howed : s.agenda = []) (hm : s.mode = .operate)
    (hd : (s.leg l).drive = .switching) (hc : (s.leg l).active = some c) (hpos : 0 < c)
    (hlt : c < s.image.hp (groupOf l)) (slope : Slope) {n : Nat}
    (hn : n = matchCount slope (s.image.hp (groupOf l)) c)
    (hnow : s.now ≤ (s.group (groupOf l)).periodStart + n) :
    s.carrierCompareMatch l slope =
      (s.atCount ((s.group (groupOf l)).periodStart + n)).setLeg l
        ((s.leg l).setTarget (s.image.dt (groupOf l)) ((s.group (groupOf l)).periodStart + n)
          (idealState c (s.image.hp (groupOf l)) n)) := by
  have hinstant : State.matchInstant l slope s = (s.group (groupOf l)).periodStart + n := by
    rw [State.matchInstant, hc, hn]
    rfl
  have hdue : s.matchDue l = true := State.matchDue_iff.mpr ⟨hm, hd, c, hc, hpos, hlt⟩
  have hdue' : (s.atCount ((s.group (groupOf l)).periodStart + n)).matchDue l = true :=
    State.matchDue_iff.mpr (by simp [hm, hd, hc, hpos, hlt])
  rw [State.carrierCompareMatch, State.arriveAt_of_empty howed, hinstant, if_pos ⟨hdue, hdue'⟩]
  simp [State.followIdeal, State.deadTime, State.carrierCount, hc, max_eq_right hnow]

/-! ### A pending turn-on (R56, R62) -/

/-- A turn-on that has been cancelled or put off is not carried out (R56). -/
theorem State.turnOnWork_of_not_due (h : ∀ p, (s.leg l).pendingOn = some p → s.now < p.due) :
    s.turnOnWork l = s := by
  refine if_neg ?_
  simp only [State.turnOnDue, Option.any_eq_true, decide_eq_true_eq, not_exists, not_and, not_le]
  exact h

theorem State.turnOnWork_of_due {p : TurnOn} (hp : (s.leg l).pendingOn = some p) (hdue : p.due ≤ s.now) :
    s.turnOnWork l = s.setLeg l ((s.leg l).completeTurnOn p.switch) := by
  have h : s.turnOnDue l = true := by
    rw [State.turnOnDue, hp]
    exact decide_eq_true hdue
  rw [State.turnOnWork, if_pos h, hp]

theorem State.setLeg_unowed {x : Leg} (howed : s.agenda = []) :
    { ({ s with agenda := [.turnOn l] } : State).setLeg l x with agenda := [] } = s.setLeg l x := by
  rw [← howed]
  rfl

/-- The clock leaves an instant where one turn-on alone is owed as it leaves the state after that turn-on. -/
theorem State.arrive_of_turnOn {p : TurnOn} (howed : s.agenda = []) (hp : (s.leg l).pendingOn = some p)
    (hdue : p.due ≤ s.now) {n : Nat} (hn : s.now < n) :
    ({ s with agenda := [.turnOn l] } : State).arrive n =
      (s.setLeg l ((s.leg l).completeTurnOn p.switch)).atCount n := by
  have hclose : ({ s with agenda := [.turnOn l] } : State).close =
      s.setLeg l ((s.leg l).completeTurnOn p.switch) := by
    have hwork : ({ s with agenda := [.turnOn l] } : State).turnOnWork l =
        ({ s with agenda := [.turnOn l] } : State).setLeg l ((s.leg l).completeTurnOn p.switch) :=
      State.turnOnWork_of_due (s := { s with agenda := [.turnOn l] }) hp hdue
    rw [State.close_of_turnOn (l := l) rfl, hwork]
    exact State.setLeg_unowed howed
  have harrive : ({ s with agenda := [.turnOn l] } : State).arrive n =
      ({ ({ s with agenda := [.turnOn l] } : State).close with now := n } : State).mapSlots
        fun _ x => { x with stopLoaded := false } := if_pos hn
  rw [harrive, hclose]
  exact (if_pos hn).symm

/-- The target that the carrier calls for where a turn-on falls due (R60 to R62). -/
theorem State.atCount_calledTarget (s : State) (l : LegId) (n : Nat) :
    (s.atCount n).calledTarget l =
      if s.mode = .operate ∧ (s.leg l).drive = .switching then
        if (s.group (groupOf l)).periodStart + 2 * s.image.hp (groupOf l) ≤ max s.now n then
          match (s.leg l).shadow with
          | some c => if s.image.hp (groupOf l) ≤ c then .high else .low
          | none => .none
        else idealState ((s.leg l).active.getD 0) (s.image.hp (groupOf l))
          (max s.now n - (s.group (groupOf l)).periodStart)
      else (s.leg l).target := by
  simp only [State.calledTarget, State.periodEnd, State.carrierCount, State.atCount_mode, State.atCount_leg,
    State.atCount_group, State.atCount_image, State.atCount_now]
  cases (s.leg l).shadow <;> simp only [idealState_zero]

/-- A turn-on that falls due is owed at its instant, or gives way to the target that is called for there. -/
theorem State.deadTimeTurnOn_eq {p : TurnOn} (howed : s.agenda = []) (hp : (s.leg l).pendingOn = some p) :
    s.deadTimeTurnOn l =
      if (s.atCount p.due).calledTarget l = (s.leg l).target then
        { s.atCount p.due with agenda := [.turnOn l] }
      else (s.atCount p.due).setLeg l
        ((s.leg l).setTarget (s.image.dt (groupOf l)) (max s.now p.due) ((s.atCount p.due).calledTarget l)) := by
  have hinstant : State.turnOnInstant l s = p.due := by rw [State.turnOnInstant, hp]
  have howe : (s.atCount p.due).owe (.turnOn l) = { s.atCount p.due with agenda := [.turnOn l] } :=
    State.owe_of_empty (by rw [State.atCount_agenda, howed]) _
  have hpend : ((s.atCount p.due).leg l).pendingOn = some p := by rw [State.atCount_leg, hp]
  rw [State.deadTimeTurnOn, State.arriveAt_of_empty howed, hinstant, hp, hpend, ← howe]
  simp only [State.atCount_leg, State.deadTime, State.atCount_image, State.atCount_now]

/-- A fast sample event goes by the state at its instant. -/
theorem State.fastSampleEvent_congr {u v : State} (hu : u.mode ≠ .reset) (hv : v.mode ≠ .reset)
    (h : u.atFastSample = v.atFastSample) (pins : FastPins) (order : List Work) :
    u.fastSampleEvent pins order = v.fastSampleEvent pins order := by
  rw [State.fastSampleEvent, State.fastSampleEvent, if_neg hu, if_neg hv, h]

theorem State.atFastSample_eq {last now : Nat} (hlast : s.lastFast = last) (hnow : s.now = now) :
    s.atFastSample =
      { s.arrive (nextInstant 100 last now) with lastFast := (s.arrive (nextInstant 100 last now)).now } := by
  subst hlast hnow
  rfl

/-- Settles O26: a match by the ideal state of its count; a turn-on owed at its instant, or cancelled by the target
that the carrier calls for there. -/
theorem carrierMovesSwitches : Obligations.CarrierMovesSwitches := by
  intro s l howed hp start dt
  refine ⟨fun c hm hd hc hpos hlt => ⟨fun hnow => ?_, fun hnow => ?_⟩, fun p hpend => ?_, fun v hv => ?_,
    fun c n _ hc hn => idealState_eq hc hn⟩
  · have hmatch := State.carrierCompareMatch_eq (n := hp - c) howed hm hd hc hpos hlt .rise rfl hnow
    rw [show idealState c (s.image.hp (groupOf l)) (hp - c) = .high from idealState_rise hpos hlt] at hmatch
    exact congrArg Host.Outcome.next hmatch
  · have hmatch := State.carrierCompareMatch_eq (n := hp + c) howed hm hd hc hpos hlt .fall rfl hnow
    rw [show idealState c (s.image.hp (groupOf l)) (hp + c) = .low from idealState_fall hlt] at hmatch
    exact congrArg Host.Outcome.next hmatch
  · intro at_ called
    have hcalled : (s.atCount p.due).calledTarget l = called := s.atCount_calledTarget l p.due
    have hexec : exec (.deadTimeTurnOn l) s = .next (s.deadTimeTurnOn l) := rfl
    rw [hexec, State.deadTimeTurnOn_eq howed hpend, hcalled]
    refine ⟨fun hsame => ?_, fun hother => by rw [if_neg hother]⟩
    intro u on
    have hon : on = (s.atCount p.due).setLeg l (((s.atCount p.due).leg l).completeTurnOn p.switch) := by
      rw [State.atCount_leg]
      change (s.atCount p.due).setLeg l (match p.switch with
        | .high => { s.leg l with gh := true, pendingOn := none }
        | .low => { s.leg l with gl := true, pendingOn := none }) = _
      cases p.switch <;> rfl
    have hunowed : (s.atCount p.due).agenda = [] := by rw [State.atCount_agenda, howed]
    have hpend' : ((s.atCount p.due).leg l).pendingOn = some p := by rw [State.atCount_leg, hpend]
    have hnow : (s.atCount p.due).now = at_ := s.atCount_now p.due
    have hleave : ∀ n, at_ < n → u.arrive n = on.atCount n := fun n hn => by
      rw [hon]
      exact State.arrive_of_turnOn hunowed hpend' (by rw [hnow]; exact le_max_right _ _) (by rw [hnow]; exact hn)
    refine ⟨by rw [if_pos hsame], hleave, fun pins order hmode hlater => ?_⟩
    have hon_unowed : on.agenda = [] := hunowed
    have hlast : (s.atCount p.due).lastFast = s.lastFast := (congrArg State.lastFast (s.atCount_frame p.due) :)
    have hsample : u.atFastSample = on.atFastSample := by
      have hu := State.atFastSample_eq (s := u) hlast hnow
      have hv := State.atFastSample_eq (s := on) hlast hnow
      rw [hu, hv, hleave _ hlater, State.arrive_of_empty hon_unowed]
    have hmode' : (s.atCount p.due).mode ≠ .reset := by rw [State.atCount_mode]; exact hmode
    have hevent := State.fastSampleEvent_congr (u := u) (v := on) hmode' hmode' hsample pins order
    exact congrArg Host.Outcome.next hevent
  · exact State.turnOnWork_of_not_due hv

end Sys2Proof.Machine
end

section
/-! SUPPORT. PERIOD_EVENT (R26, R27, R57, R60, R74, R82, R84 to R86): the works it leaves, and what it does to legs
and slots before them. -/

namespace Sys2Proof.Machine

variable (s : State) (g : GroupId) (i : SlotId) (l : LegId)

/-! ### The works that a period event leaves -/

theorem State.mem_slotsOf : i ∈ s.slotsOf g ↔ (s.slot i).group = some g := by
  simp [State.slotsOf]

/-- The imbalance works ascend by slot, and for one slot by phase. -/
theorem State.imbalanceWorks_ranked :
    Ranked 544 576 ((s.slotsOf g).flatMap fun i =>
      ([.u, .v, .w].filter fun ph => s.legImbalanceDue i ph).map (.legImbalance i)) := by
  have hphase : ∀ ph, (phaseIndex ph).val < 3 := fun ph => (phaseIndex ph).isLt
  have hwork : ∀ i, ∀ w ∈ ([.u, .v, .w].filter fun ph => s.legImbalanceDue i ph).map (Work.legImbalance i),
      ∃ ph, w = .legImbalance i ph := fun i w hw => by
    obtain ⟨ph, -, rfl⟩ := List.mem_map.mp hw
    exact ⟨ph, rfl⟩
  refine ⟨List.pairwise_flatMap.mpr ⟨fun i _ => ?_, ?_⟩, fun w hw => ?_⟩
  · have hphases : [Phase.u, .v, .w].Pairwise fun a b => (phaseIndex a).val < (phaseIndex b).val := by decide
    refine List.pairwise_map.mpr ((hphases.filter _).imp fun h => ?_)
    simp only [workRank]
    omega
  · refine ((List.pairwise_lt_finRange 8).filter _).imp fun {i j} hij x hx y hy => ?_
    obtain ⟨a, rfl⟩ := hwork i x hx
    obtain ⟨b, rfl⟩ := hwork j y hy
    have ha := hphase a
    simp only [workRank]
    omega
  · obtain ⟨i, -, hi⟩ := List.mem_flatMap.mp hw
    obtain ⟨ph, rfl⟩ := hwork i w hi
    have hph := hphase ph
    simp only [workRank]
    omega

/-- The works of a period event ascend in rank. -/
theorem State.periodWorks_ranked : Ranked 480 608 (s.periodWorks g) := by
  have slots {a : Nat} {f : SlotId → Work} (hf : ∀ i, workRank (f i) = a + i.val) (p : SlotId → Bool) :
      Ranked a (a + 32) (((s.slotsOf g).filter p).map f) :=
    .map (((List.pairwise_lt_finRange 8).filter _).filter p) hf fun i => by omega
  have compute : Ranked 480 512 [.compute g] :=
    .singleton (by simp only [workRank]; omega) (by simp only [workRank]; omega)
  have sums : Ranked 512 544 (((s.slotsOf g).filter s.currentSumDue).map .currentSum) := slots (fun _ => rfl) _
  have imbalances := s.imbalanceWorks_ranked g
  have completions : Ranked 576 608
      (((s.slotsOf g).filter fun i => s.calDue i && s.leadOf i == i).map .calibrationComplete) :=
    slots (fun _ => rfl) _
  exact compute.append ((sums.append imbalances).append completions)

/-- A slot leads unless its partner has the lower number (R18). -/
theorem State.leadOf_eq_self_iff : s.leadOf i = i ↔ ∀ p, (s.slot i).partner = some p → i ≤ p := by
  unfold State.leadOf
  cases hp : (s.slot i).partner with
  | none => simp
  | some p =>
    dsimp only
    by_cases h : p < i
    · simp [h, h.ne]
    · simp [h, not_lt.mp h]

/-- Each kind of work of a period event, and when it is due. -/
theorem State.mem_periodWorks (w : Work) :
    w ∈ s.periodWorks g ↔
      w = .compute g ∨
      (∃ i, w = .currentSum i ∧ (s.slot i).group = some g ∧
        ((s.slot i).state = .run ∨ (s.slot i).state = .stopping) ∧
        (s.slot i).check.sumCount = s.image.isumN i) ∨
      (∃ i ph, w = .legImbalance i ph ∧ (s.slot i).group = some g ∧
        ((s.slot i).state = .run ∨ (s.slot i).state = .stopping) ∧
        (s.slot i).check.imbCount[phaseIndex ph] = s.image.isumN i) ∨
      (∃ i c, w = .calibrationComplete i ∧ (s.slot i).group = some g ∧
        (s.slot i).state = .calibrating ∧ (s.slot i).cal = some c ∧ 256 ≤ c.count ∧
        ∀ p, (s.slot i).partner = some p → i ≤ p) := by
  simp only [State.periodWorks, List.mem_cons, List.mem_append, List.mem_map, List.mem_flatMap, List.mem_filter,
    State.mem_slotsOf, State.currentSumDue_iff, State.legImbalanceDue_iff, Bool.and_eq_true, beq_iff_eq,
    State.calDue_iff, State.leadOf_eq_self_iff, or_assoc]
  refine or_congr_right (or_congr ?_ (or_congr ?_ ?_))
  · exact exists_congr fun i => by rw [and_comm, eq_comm]
  · constructor
    · rintro ⟨i, hg, ph, ⟨-, hrun, hcount⟩, rfl⟩
      exact ⟨i, ph, rfl, hg, hrun, hcount⟩
    · rintro ⟨i, ph, rfl, hg, hrun, hcount⟩
      exact ⟨i, hg, ph, ⟨by cases ph <;> simp, hrun, hcount⟩, rfl⟩
  · constructor
    · rintro ⟨i, ⟨hg, ⟨hst, c, hcal, hcount⟩, hlead⟩, rfl⟩
      exact ⟨i, c, rfl, hg, hst, hcal, hcount, hlead⟩
    · rintro ⟨i, c, rfl, hg, hst, hcal, hcount, hlead⟩
      exact ⟨i, ⟨hg, ⟨hst, c, hcal, hcount⟩, hlead⟩, rfl⟩

/-! ### What a period event does to a leg -/

theorem Leg.setTarget_raw (x : Leg) (dt now : Nat) (t : Target) : (x.setTarget dt now t).raw = x.raw := by
  unfold Leg.setTarget
  split
  · rfl
  · split
    · rfl
    · split <;> rfl
    · split <;> rfl

theorem Leg.setTarget_offset (x : Leg) (dt now : Nat) (t : Target) : (x.setTarget dt now t).offset = x.offset := by
  unfold Leg.setTarget
  split
  · rfl
  · split
    · rfl
    · split <;> rfl
    · split <;> rfl

/-- Only a PHASE leg takes a shadow (R60). -/
theorem Leg.takeShadow_of_not_phase {x : Leg} (h : x.func.heldByToff = false ∨ x.func = .forced)
    (hp dt now : Nat) : x.takeShadow hp dt now = x := by
  unfold Leg.takeShadow
  cases hf : x.func with
  | phase a b c => rw [hf] at h; obtain h | h := h <;> exact absurd h (by simp [LegFunc.heldByToff])
  | unused | chopper | forced => rfl

/-- A PHASE leg takes the compare value of its shadow, if it has one, as its active compare (R60). -/
theorem Leg.takeShadow_of_phase {x : Leg} (h : x.func.heldByToff = true) (hforced : x.func ≠ .forced)
    (hp dt now : Nat) :
    x.takeShadow hp dt now =
      match x.shadow with
      | some c =>
        { x.setTarget dt now (if hp ≤ c then .high else .low) with
          drive := .switching, active := some c, shadow := none }
      | none => { x.setTarget dt now .none with drive := .off, active := none, shadow := none } := by
  unfold Leg.takeShadow
  cases hf : x.func with
  | phase a b c => cases x.shadow <;> simp only [idealState_zero]
  | forced => exact absurd hf hforced
  | unused | chopper => rw [hf] at h; exact absurd h (by simp [LegFunc.heldByToff])

theorem Leg.takeShadow_raw (x : Leg) (hp dt now : Nat) : (x.takeShadow hp dt now).raw = x.raw := by
  unfold Leg.takeShadow
  split
  · split <;> exact x.setTarget_raw _ _ _
  · rfl

theorem Leg.takeShadow_offset (x : Leg) (hp dt now : Nat) : (x.takeShadow hp dt now).offset = x.offset := by
  unfold Leg.takeShadow
  split
  · split <;> exact x.setTarget_offset _ _ _
  · rfl

theorem Leg.takeSample_takeShadow (x : Leg) (hp dt now : Nat) :
    (x.takeShadow hp dt now).takeSample =
      { x.takeShadow hp dt now with sample := sat16 (x.raw - x.offset) } :=
  congrArg (fun n => { x.takeShadow hp dt now with sample := sat16 n })
    (by rw [Leg.takeShadow_raw, Leg.takeShadow_offset])

theorem State.periodStart_leg_raw : ((s.periodStart g).leg l).raw = (s.leg l).raw := by
  rw [s.periodStart_leg]
  split
  · exact Leg.takeShadow_raw _ _ _ _
  · rfl

/-- A leg of the group takes its shadow and then its sample, from the raw value it has (R60, R74). -/
theorem State.periodStart_leg_of_group (h : groupOf l = g) :
    (s.periodStart g).leg l =
      { (s.leg l).takeShadow (s.image.hp g) (s.image.dt g) s.now with
        sample := sat16 ((s.leg l).raw - (s.leg l).offset) } := by
  rw [s.periodStart_leg, if_pos h, State.deadTime, h]
  exact Leg.takeSample_takeShadow _ _ _ _

/-! ### What a period event does to a slot -/

/-- The checks of a slot go by the legs and the image alone (R84 to R86). -/
theorem State.mapSlots_periodSlot (f : SlotId → Slot → Slot) (x : Slot) :
    (s.mapSlots f).periodSlot g i x = s.periodSlot g i x := rfl

/-- A slot is checked on the new samples (R74, R84). -/
theorem State.periodStart_slot_eq : (s.periodStart g).slot i = (s.periodStart g).periodSlot g i (s.slot i) := by
  unfold State.periodStart
  dsimp only
  rw [State.mapSlots_periodSlot, State.slot_mapSlots, State.mapLegs_slot, State.setGroup_slot]

theorem State.periodSlot_of_other {x : Slot} (h : x.group ≠ some g) : s.periodSlot g i x = x := if_neg h

/-- A slot of the group is checked when it runs, and sampled when it calibrates (R82, R84). -/
theorem State.periodSlot_of_group {x : Slot} (h : x.group = some g) :
    s.periodSlot g i x =
      { x with
        check := if x.state = .run ∨ x.state = .stopping then s.checkSlot i x else x.check
        cal := x.cal.map (s.calSample x) } := by
  rw [State.periodSlot, if_pos h]
  simp only [SlotState.isRunning_iff]
  cases hcal : x.cal with
  | some c =>
    by_cases hrun : x.state = .run ∨ x.state = .stopping <;> simp only [hrun, if_true, if_false, Option.map]
  | none =>
    by_cases hrun : x.state = .run ∨ x.state = .stopping <;>
      simp only [hrun, if_true, if_false, Option.map, ← hcal]

/-- The check of a phase with two legs (R86). -/
theorem State.imbOut_of_two {x : Slot} {ph : Phase} {a b : LegId} (ha : x.legAt ph 0 = some a)
    (hb : x.legAt ph 1 = some b) :
    s.imbOut i x ph = some (decide (s.image.ibalTol i < ((s.leg a).sample - (s.leg b).sample).natAbs)) := by
  rw [State.imbOut, State.imbalance, ha, hb]
  rfl

/-- A phase with one leg has no imbalance (R86). -/
theorem State.imbOut_of_one {x : Slot} {ph : Phase} (h : x.legAt ph 0 = none ∨ x.legAt ph 1 = none) :
    s.imbOut i x ph = none := by
  rw [State.imbOut, State.imbalance]
  obtain h | h := h
  · rw [h]; rfl
  · rw [h]; cases x.legAt ph 0 <;> rfl

theorem State.checkSlot_sumMark (x : Slot) :
    (s.checkSlot i x).sumMark = decide (s.image.isumTol i < (s.currentSum x).natAbs) := rfl

theorem State.checkSlot_sumCount (x : Slot) :
    (s.checkSlot i x).sumCount =
      stepCount x.check.sumCount (s.image.isumN i) (s.checkSlot i x).sumMark := rfl

theorem State.checkSlot_imbMark (x : Slot) (ph : Phase) :
    (s.checkSlot i x).imbMark[phaseIndex ph] = (s.imbOut i x ph).getD false := by
  cases ph <;> rfl

theorem State.checkSlot_imbCount (x : Slot) (ph : Phase) :
    (s.checkSlot i x).imbCount[phaseIndex ph] =
      match s.imbOut i x ph with
      | some b => stepCount x.check.imbCount[phaseIndex ph] (s.image.isumN i) b
      | none => 0 := by
  cases ph <;> rfl

/-! ### The event -/

theorem State.periodStart_agenda : (s.periodStart g).agenda = s.agenda :=
  (congrArg State.agenda (s.periodStart_frame g) :)

theorem State.periodStart_image : (s.periodStart g).image = s.image :=
  (congrArg State.image (s.periodStart_frame g) :)

theorem State.periodStart_now : (s.periodStart g).now = s.now :=
  (congrArg State.now (s.periodStart_frame g) :)

theorem State.periodStart_group (h : GroupId) :
    (s.periodStart g).group h = if h = g then { s.group g with periodStart := s.now } else s.group h := by
  rw [State.periodStart, State.mapSlots_group, State.mapLegs_group, State.group_setGroup]
  exact if_congr eq_comm rfl rfl

variable {s g} in
/-- The clock comes to the end of the period, or stands where it was when that is past (log 3). -/
theorem State.periodEvent_of_empty (hm : s.mode = .operate) (ha : s.agenda = []) (order : List Work) :
    s.periodEvent g order =
      runWorks (arrange order (((s.atCount (s.periodEnd g)).periodStart g).periodWorks g))
        ((s.atCount (s.periodEnd g)).periodStart g) := by
  have hagenda := (State.periodStart_agenda (s.atCount (s.periodEnd g)) g).trans ((s.atCount_agenda _).trans ha)
  rw [State.periodEvent, State.arriveAt_of_empty ha, State.atCount_mode]
  generalize (s.atCount (s.periodEnd g)).periodStart g = u at hagenda ⊢
  rw [if_pos ⟨hm, hm⟩, State.post_of_empty hagenda]

/-- Marks clear as the clock leaves their instant, wherever it goes (R142). -/
theorem State.atCount_max (n : Nat) : s.atCount (max s.now n) = s.atCount n := by
  by_cases h : s.now < n
  · rw [max_eq_right h.le]
  · rw [max_eq_left (not_lt.mp h), State.atCount, State.atCount, if_neg h, if_neg (lt_irrefl _)]

/-- Settles O23: the event is its instant, what it does to legs and slots, and its works, which ascend in
rank. -/
theorem periodEventTakesShadows : Obligations.PeriodEventTakesShadows := by
  intro s g order hm ha
  obtain ⟨v, hv⟩ : ∃ v, v = s.atCount (s.periodEnd g) := ⟨_, rfl⟩
  have himage : (v.periodStart g).image = s.image :=
    (v.periodStart_image g).trans (hv ▸ s.atCount_image _)
  have hnow : (v.periodStart g).now = max s.now (s.periodEnd g) :=
    (v.periodStart_now g).trans (hv ▸ s.atCount_now _)
  have hraw (l : LegId) : ((v.periodStart g).leg l).raw = (s.leg l).raw := by
    rw [State.periodStart_leg_raw, hv, State.atCount_leg]
  have hleg {l : LegId} (hl : groupOf l = g) : (v.periodStart g).leg l =
      { (s.leg l).takeShadow (s.image.hp g) (s.image.dt g) (v.periodStart g).now with
        sample := sat16 ((s.leg l).raw - (s.leg l).offset) } := by
    rw [State.periodStart_leg_of_group _ _ _ hl, hnow, hv, State.atCount_leg, State.atCount_image,
      State.atCount_now]
  refine ⟨v.periodStart g, congrArg _ (hv ▸ State.periodEvent_of_empty hm ha order),
    (State.periodWorks_ranked _ g).inRuleOrder.kept order, fun w => ?_, hnow, ?_, fun h hne => ?_,
    fun l hl hheld hforced => ⟨fun c hc => ?_, fun hc => ?_⟩, fun l hl hfunc => ?_, fun l hl => ?_, ?_, ?_⟩
  · rw [mem_arrange, State.mem_periodWorks, himage]
  · rw [State.periodStart_group, if_pos rfl, State.periodStart_now, hv, State.atCount_group]
  · rw [State.periodStart_group, if_neg hne, hv, State.atCount_group]
  · rw [hleg hl, Leg.takeShadow_of_phase hheld hforced, hc]
  · rw [hleg hl, Leg.takeShadow_of_phase hheld hforced, hc]
  · rw [hleg hl, Leg.takeShadow_of_not_phase hfunc]
  · rw [State.periodStart_leg, if_neg hl, hv, State.atCount_leg]
  · intro i x n step sumOut
    have hx : x = v.slot i :=
      congrArg (fun y : State => y.slot i) ((congrArg s.atCount hnow).trans ((s.atCount_max _).trans hv.symm))
    have hslot : (v.periodStart g).slot i = (v.periodStart g).periodSlot g i x := by
      rw [State.periodStart_slot_eq, hx]
    have hsum : ((v.periodStart g).checkSlot i x).sumMark = sumOut := by
      rw [State.checkSlot_sumMark, State.currentSum, himage]
    have hstep : step = fun count out => stepCount count n out := rfl
    have hcal : (v.periodStart g).calSample x = fun c =>
        ⟨c.count + 1, List.zipWith (fun t sum => sum + (s.leg t.leg).raw) x.seats c.sums⟩ := by
      funext c
      simp only [State.calSample, hraw]
    refine ⟨fun hg => hslot.trans (State.periodSlot_of_other _ _ _ hg), fun hg =>
      ⟨(v.periodStart g).checkSlot i x, ?_, hsum, ?_, fun ph => ⟨fun a b hla hlb => ?_, fun hnone => ?_⟩⟩⟩
    · rw [hslot, State.periodSlot_of_group _ _ _ hg, hcal]
    · rw [State.checkSlot_sumCount, hsum, himage, hstep]
    · intro out
      have hout : (v.periodStart g).imbOut i x ph = some out := by
        rw [State.imbOut_of_two _ _ hla hlb, himage]
      clear_value out
      exact ⟨by rw [State.checkSlot_imbMark, hout, Option.getD_some],
        by rw [State.checkSlot_imbCount, hout, himage, hstep]⟩
    · have hout := (v.periodStart g).imbOut_of_one i hnone
      exact ⟨by rw [State.checkSlot_imbMark, hout, Option.getD_none], by rw [State.checkSlot_imbCount, hout]⟩
  · have hframe := (congrArg (fun x : State => { x with legs := s.legs, groups := s.groups })
      (s.atCount_frame (s.periodEnd g)) :)
    rw [← hv] at hframe
    exact (congrArg (fun x : State =>
      { x with now := s.now, slots := s.slots, legs := s.legs, groups := s.groups })
      (v.periodStart_frame g) :).trans hframe

end Sys2Proof.Machine
end
